-- ==== Sys2Proof/Word.lean ====
section
/-! DEFINITION. The machine's words: general registers, pc, hi and lo are 32 bits (00_scope R10), a bus
byte is 8 bits (20_memory R86), a register number is 5 bits (30_encoding R121). -/

namespace Sys2Proof

abbrev Word := BitVec 32

abbrev Byte := BitVec 8

/-- A general register number, or a COP0 register number. -/
abbrev Reg := BitVec 5

end Sys2Proof
end

