-- ==== Sys2Proof/Syntax.lean ====
section
/-! DEFINITION. The instructions: one constructor per row of spec/opcode_table.json, in the table's order, operands
in assembler order (30_encoding R136). A constructor carries exactly the fields its row gives it. -/

namespace Sys2Proof

inductive Instr where
  -- SPECIAL (30_encoding R128)
  | sll (rd rt : Reg) (shamt : BitVec 5)
  | srl (rd rt : Reg) (shamt : BitVec 5)
  | sra (rd rt : Reg) (shamt : BitVec 5)
  | sllv (rd rt rs : Reg)
  | srlv (rd rt rs : Reg)
  | srav (rd rt rs : Reg)
  | jr (rs : Reg)
  | jalr (rd rs : Reg)
  | syscall (code : BitVec 20)
  | brk (code : BitVec 20)
  | mfhi (rd : Reg)
  | mthi (rs : Reg)
  | mflo (rd : Reg)
  | mtlo (rs : Reg)
  | mult (rs rt : Reg)
  | multu (rs rt : Reg)
  | div (rs rt : Reg)
  | divu (rs rt : Reg)
  | add (rd rs rt : Reg)
  | addu (rd rs rt : Reg)
  | sub (rd rs rt : Reg)
  | subu (rd rs rt : Reg)
  | and (rd rs rt : Reg)
  | or (rd rs rt : Reg)
  | xor (rd rs rt : Reg)
  | nor (rd rs rt : Reg)
  | slt (rd rs rt : Reg)
  | sltu (rd rs rt : Reg)
  -- REGIMM (30_encoding R129)
  | bltz (rs : Reg) (imm : BitVec 16)
  | bgez (rs : Reg) (imm : BitVec 16)
  | bltzal (rs : Reg) (imm : BitVec 16)
  | bgezal (rs : Reg) (imm : BitVec 16)
  -- primary opcodes (30_encoding R127)
  | j (target : BitVec 26)
  | jal (target : BitVec 26)
  | beq (rs rt : Reg) (imm : BitVec 16)
  | bne (rs rt : Reg) (imm : BitVec 16)
  | blez (rs : Reg) (imm : BitVec 16)
  | bgtz (rs : Reg) (imm : BitVec 16)
  | addi (rt rs : Reg) (imm : BitVec 16)
  | addiu (rt rs : Reg) (imm : BitVec 16)
  | slti (rt rs : Reg) (imm : BitVec 16)
  | sltiu (rt rs : Reg) (imm : BitVec 16)
  | andi (rt rs : Reg) (imm : BitVec 16)
  | ori (rt rs : Reg) (imm : BitVec 16)
  | xori (rt rs : Reg) (imm : BitVec 16)
  | lui (rt : Reg) (imm : BitVec 16)
  | lb (rt base : Reg) (offset : BitVec 16)
  | lh (rt base : Reg) (offset : BitVec 16)
  | lwl (rt base : Reg) (offset : BitVec 16)
  | lw (rt base : Reg) (offset : BitVec 16)
  | lbu (rt base : Reg) (offset : BitVec 16)
  | lhu (rt base : Reg) (offset : BitVec 16)
  | lwr (rt base : Reg) (offset : BitVec 16)
  | sb (rt base : Reg) (offset : BitVec 16)
  | sh (rt base : Reg) (offset : BitVec 16)
  | swl (rt base : Reg) (offset : BitVec 16)
  | sw (rt base : Reg) (offset : BitVec 16)
  | swr (rt base : Reg) (offset : BitVec 16)
  -- coprocessors (30_encoding R130, R133)
  | mfc0 (rt rd : Reg)
  | mtc0 (rt rd : Reg)
  | rfe
  | cop1 (cofun : BitVec 26)
  | cop2 (cofun : BitVec 26)
  | cop3 (cofun : BitVec 26)
  | lwc0 (rt base : Reg) (offset : BitVec 16)
  | lwc1 (rt base : Reg) (offset : BitVec 16)
  | lwc2 (rt base : Reg) (offset : BitVec 16)
  | lwc3 (rt base : Reg) (offset : BitVec 16)
  | swc0 (rt base : Reg) (offset : BitVec 16)
  | swc1 (rt base : Reg) (offset : BitVec 16)
  | swc2 (rt base : Reg) (offset : BitVec 16)
  | swc3 (rt base : Reg) (offset : BitVec 16)
  deriving DecidableEq, Repr

end Sys2Proof
end

