-- ==== Sys2Proof/WellFormed.lean ====
section
/-! DEFINITION. What is checked about an instruction's form.

An `Instr` term carries each operand at exactly the width of its field, so no `Instr` term is ill-formed. What can be
ill-formed is a WORD: the fields an instruction does not use are ignored by decode (30_encoding R132), and the word is
canonical when each of them is 0. `unusedBits` names those fields, `canonicalWord` is the check. -/

namespace Sys2Proof

/-- The bits of the fields the instruction does not use (30_encoding R132; 41_alu, 42_muldiv, 43_branch_jump and
45_cop_system name them rule by rule). -/
def Instr.unusedBits (i : Instr) : Word :=
  match i with
  | .sll _ _ _ => 0x03E00000#32
  | .srl _ _ _ => 0x03E00000#32
  | .sra _ _ _ => 0x03E00000#32
  | .sllv _ _ _ => 0x000007C0#32
  | .srlv _ _ _ => 0x000007C0#32
  | .srav _ _ _ => 0x000007C0#32
  | .jr _ => 0x001FFFC0#32
  | .jalr _ _ => 0x001F07C0#32
  | .syscall _ => 0x00000000#32
  | .brk _ => 0x00000000#32
  | .mfhi _ => 0x03FF07C0#32
  | .mthi _ => 0x001FFFC0#32
  | .mflo _ => 0x03FF07C0#32
  | .mtlo _ => 0x001FFFC0#32
  | .mult _ _ => 0x0000FFC0#32
  | .multu _ _ => 0x0000FFC0#32
  | .div _ _ => 0x0000FFC0#32
  | .divu _ _ => 0x0000FFC0#32
  | .add _ _ _ => 0x000007C0#32
  | .addu _ _ _ => 0x000007C0#32
  | .sub _ _ _ => 0x000007C0#32
  | .subu _ _ _ => 0x000007C0#32
  | .and _ _ _ => 0x000007C0#32
  | .or _ _ _ => 0x000007C0#32
  | .xor _ _ _ => 0x000007C0#32
  | .nor _ _ _ => 0x000007C0#32
  | .slt _ _ _ => 0x000007C0#32
  | .sltu _ _ _ => 0x000007C0#32
  | .bltz _ _ => 0x00000000#32
  | .bgez _ _ => 0x00000000#32
  | .bltzal _ _ => 0x00000000#32
  | .bgezal _ _ => 0x00000000#32
  | .j _ => 0x00000000#32
  | .jal _ => 0x00000000#32
  | .beq _ _ _ => 0x00000000#32
  | .bne _ _ _ => 0x00000000#32
  | .blez _ _ => 0x001F0000#32
  | .bgtz _ _ => 0x001F0000#32
  | .addi _ _ _ => 0x00000000#32
  | .addiu _ _ _ => 0x00000000#32
  | .slti _ _ _ => 0x00000000#32
  | .sltiu _ _ _ => 0x00000000#32
  | .andi _ _ _ => 0x00000000#32
  | .ori _ _ _ => 0x00000000#32
  | .xori _ _ _ => 0x00000000#32
  | .lui _ _ => 0x03E00000#32
  | .lb _ _ _ => 0x00000000#32
  | .lh _ _ _ => 0x00000000#32
  | .lwl _ _ _ => 0x00000000#32
  | .lw _ _ _ => 0x00000000#32
  | .lbu _ _ _ => 0x00000000#32
  | .lhu _ _ _ => 0x00000000#32
  | .lwr _ _ _ => 0x00000000#32
  | .sb _ _ _ => 0x00000000#32
  | .sh _ _ _ => 0x00000000#32
  | .swl _ _ _ => 0x00000000#32
  | .sw _ _ _ => 0x00000000#32
  | .swr _ _ _ => 0x00000000#32
  | .mfc0 _ _ => 0x000007FF#32
  | .mtc0 _ _ => 0x000007FF#32
  | .rfe => 0x01FFFFC0#32
  | .cop1 _ => 0x00000000#32
  | .cop2 _ => 0x00000000#32
  | .cop3 _ => 0x00000000#32
  | .lwc0 _ _ _ => 0x00000000#32
  | .lwc1 _ _ _ => 0x00000000#32
  | .lwc2 _ _ _ => 0x00000000#32
  | .lwc3 _ _ _ => 0x00000000#32
  | .swc0 _ _ _ => 0x00000000#32
  | .swc1 _ _ _ => 0x00000000#32
  | .swc2 _ _ _ => 0x00000000#32
  | .swc3 _ _ _ => 0x00000000#32

/-- The word `w`, read as the instruction `i`, has 0 in every field `i` does not use. -/
def Instr.canonicalWord (i : Instr) (w : Word) : Bool :=
  w &&& i.unusedBits == 0#32

end Sys2Proof
end

