-- ==== Sys2Proof/Decode.lean ====
section
/-! DEFINITION. The decoder (30_encoding R120 to R133), the encoder written from the same formats, and the byte and
opcode-table readings of a word. Decode is total: a word is an instruction, a reserved encoding, or one of the two
classes of words the spec refuses by name. -/

namespace Sys2Proof

/-- What a word is (30_encoding R126). -/
inductive Decoded where
  /-- An instruction of spec/opcode_table.json. -/
  | instr (i : Instr)
  /-- A cell marked RI of 30_encoding R127 or R128: the reserved-instruction exception (R131). -/
  | reserved
  /-- A REGIMM word whose rt is none of the four of 30_encoding R129. -/
  | otherRegimm
  /-- A COP0 word that is neither MFC0, MTC0 nor RFE (30_encoding R130). -/
  | otherCop0
  deriving DecidableEq, Repr

/-! Fields (30_encoding R121 to R124). -/

def opOf (w : Word) : BitVec 6 := w.extractLsb' 26 6
def rsOf (w : Word) : Reg := w.extractLsb' 21 5
def rtOf (w : Word) : Reg := w.extractLsb' 16 5
def rdOf (w : Word) : Reg := w.extractLsb' 11 5
def shamtOf (w : Word) : BitVec 5 := w.extractLsb' 6 5
def functOf (w : Word) : BitVec 6 := w.extractLsb' 0 6
def immOf (w : Word) : BitVec 16 := w.extractLsb' 0 16
def targetOf (w : Word) : BitVec 26 := w.extractLsb' 0 26
def codeOf (w : Word) : BitVec 20 := w.extractLsb' 6 20

/-- op = 0x00, by funct (30_encoding R128). -/
def decodeSpecial (w : Word) : Decoded :=
  match (functOf w).toNat with
  | 0x00 => .instr (.sll (rdOf w) (rtOf w) (shamtOf w))
  | 0x02 => .instr (.srl (rdOf w) (rtOf w) (shamtOf w))
  | 0x03 => .instr (.sra (rdOf w) (rtOf w) (shamtOf w))
  | 0x04 => .instr (.sllv (rdOf w) (rtOf w) (rsOf w))
  | 0x06 => .instr (.srlv (rdOf w) (rtOf w) (rsOf w))
  | 0x07 => .instr (.srav (rdOf w) (rtOf w) (rsOf w))
  | 0x08 => .instr (.jr (rsOf w))
  | 0x09 => .instr (.jalr (rdOf w) (rsOf w))
  | 0x0C => .instr (.syscall (codeOf w))
  | 0x0D => .instr (.brk (codeOf w))
  | 0x10 => .instr (.mfhi (rdOf w))
  | 0x11 => .instr (.mthi (rsOf w))
  | 0x12 => .instr (.mflo (rdOf w))
  | 0x13 => .instr (.mtlo (rsOf w))
  | 0x18 => .instr (.mult (rsOf w) (rtOf w))
  | 0x19 => .instr (.multu (rsOf w) (rtOf w))
  | 0x1A => .instr (.div (rsOf w) (rtOf w))
  | 0x1B => .instr (.divu (rsOf w) (rtOf w))
  | 0x20 => .instr (.add (rdOf w) (rsOf w) (rtOf w))
  | 0x21 => .instr (.addu (rdOf w) (rsOf w) (rtOf w))
  | 0x22 => .instr (.sub (rdOf w) (rsOf w) (rtOf w))
  | 0x23 => .instr (.subu (rdOf w) (rsOf w) (rtOf w))
  | 0x24 => .instr (.and (rdOf w) (rsOf w) (rtOf w))
  | 0x25 => .instr (.or (rdOf w) (rsOf w) (rtOf w))
  | 0x26 => .instr (.xor (rdOf w) (rsOf w) (rtOf w))
  | 0x27 => .instr (.nor (rdOf w) (rsOf w) (rtOf w))
  | 0x2A => .instr (.slt (rdOf w) (rsOf w) (rtOf w))
  | 0x2B => .instr (.sltu (rdOf w) (rsOf w) (rtOf w))
  | _ => .reserved

/-- op = 0x01, by rt (30_encoding R129). -/
def decodeRegimm (w : Word) : Decoded :=
  match (rtOf w).toNat with
  | 0x00 => .instr (.bltz (rsOf w) (immOf w))
  | 0x01 => .instr (.bgez (rsOf w) (immOf w))
  | 0x10 => .instr (.bltzal (rsOf w) (immOf w))
  | 0x11 => .instr (.bgezal (rsOf w) (immOf w))
  | _ => .otherRegimm

/-- op = 0x10, by rs and, for the operation form (bit 25 = 1), funct (30_encoding R124, R130). -/
def decodeCop0 (w : Word) : Decoded :=
  if rsOf w = 0x00#5 then .instr (.mfc0 (rtOf w) (rdOf w))
  else if rsOf w = 0x04#5 then .instr (.mtc0 (rtOf w) (rdOf w))
  else if w.getLsbD 25 && functOf w = 0x10#6 then .instr .rfe
  else .otherCop0

/-- The whole map (30_encoding R126, R127). -/
def decode (w : Word) : Decoded :=
  match (opOf w).toNat with
  | 0x00 => decodeSpecial w
  | 0x01 => decodeRegimm w
  | 0x10 => decodeCop0 w
  | 0x02 => .instr (.j (targetOf w))
  | 0x03 => .instr (.jal (targetOf w))
  | 0x04 => .instr (.beq (rsOf w) (rtOf w) (immOf w))
  | 0x05 => .instr (.bne (rsOf w) (rtOf w) (immOf w))
  | 0x06 => .instr (.blez (rsOf w) (immOf w))
  | 0x07 => .instr (.bgtz (rsOf w) (immOf w))
  | 0x08 => .instr (.addi (rtOf w) (rsOf w) (immOf w))
  | 0x09 => .instr (.addiu (rtOf w) (rsOf w) (immOf w))
  | 0x0A => .instr (.slti (rtOf w) (rsOf w) (immOf w))
  | 0x0B => .instr (.sltiu (rtOf w) (rsOf w) (immOf w))
  | 0x0C => .instr (.andi (rtOf w) (rsOf w) (immOf w))
  | 0x0D => .instr (.ori (rtOf w) (rsOf w) (immOf w))
  | 0x0E => .instr (.xori (rtOf w) (rsOf w) (immOf w))
  | 0x0F => .instr (.lui (rtOf w) (immOf w))
  | 0x20 => .instr (.lb (rtOf w) (rsOf w) (immOf w))
  | 0x21 => .instr (.lh (rtOf w) (rsOf w) (immOf w))
  | 0x22 => .instr (.lwl (rtOf w) (rsOf w) (immOf w))
  | 0x23 => .instr (.lw (rtOf w) (rsOf w) (immOf w))
  | 0x24 => .instr (.lbu (rtOf w) (rsOf w) (immOf w))
  | 0x25 => .instr (.lhu (rtOf w) (rsOf w) (immOf w))
  | 0x26 => .instr (.lwr (rtOf w) (rsOf w) (immOf w))
  | 0x28 => .instr (.sb (rtOf w) (rsOf w) (immOf w))
  | 0x29 => .instr (.sh (rtOf w) (rsOf w) (immOf w))
  | 0x2A => .instr (.swl (rtOf w) (rsOf w) (immOf w))
  | 0x2B => .instr (.sw (rtOf w) (rsOf w) (immOf w))
  | 0x2E => .instr (.swr (rtOf w) (rsOf w) (immOf w))
  | 0x11 => .instr (.cop1 (targetOf w))
  | 0x12 => .instr (.cop2 (targetOf w))
  | 0x13 => .instr (.cop3 (targetOf w))
  | 0x30 => .instr (.lwc0 (rtOf w) (rsOf w) (immOf w))
  | 0x31 => .instr (.lwc1 (rtOf w) (rsOf w) (immOf w))
  | 0x32 => .instr (.lwc2 (rtOf w) (rsOf w) (immOf w))
  | 0x33 => .instr (.lwc3 (rtOf w) (rsOf w) (immOf w))
  | 0x38 => .instr (.swc0 (rtOf w) (rsOf w) (immOf w))
  | 0x39 => .instr (.swc1 (rtOf w) (rsOf w) (immOf w))
  | 0x3A => .instr (.swc2 (rtOf w) (rsOf w) (immOf w))
  | 0x3B => .instr (.swc3 (rtOf w) (rsOf w) (immOf w))
  | _ => .reserved

/-! Bytes: a word is stored little-endian (30_encoding R120, 20_memory R84). -/

/-- The word whose bytes are `b0` to `b3`, `b0` at the lowest address. -/
def wordOfBytes (b0 b1 b2 b3 : Byte) : Word := b3 ++ b2 ++ b1 ++ b0

/-- The four bytes of a word, the one at the lowest address first. -/
def bytesOfWord (w : Word) : List Byte :=
  [w.extractLsb' 0 8, w.extractLsb' 8 8, w.extractLsb' 16 8, w.extractLsb' 24 8]

/-- The decoder on bytes: what the first four bytes are and the bytes after them; `none` when fewer are given. -/
def decodeBytes (bs : List Byte) : Option (Decoded × List Byte) :=
  match bs with
  | b0 :: b1 :: b2 :: b3 :: rest => some (decode (wordOfBytes b0 b1 b2 b3), rest)
  | _ => none

/-- The word whose low `nbits` bits are those of `w` and whose others are 0. -/
def tableWord (nbits w : Nat) : Word := BitVec.ofNat 32 (w % 2 ^ nbits)

/-- The instruction this decoder reads from the bits `w` of an opcode-table row. -/
def decodeTableWord (nbits w : Nat) : Option Instr :=
  match decodeBytes (bytesOfWord (tableWord nbits w)) with
  | some (.instr i, _) => some i
  | _ => none

/-! The encoder: 0 in every field the instruction does not use. -/

/-- R-format with op 0x00 (30_encoding R121). -/
def rWord (rs rt rd : Reg) (shamt : BitVec 5) (funct : BitVec 6) : Word :=
  0x00#6 ++ rs ++ rt ++ rd ++ shamt ++ funct

/-- I-format (30_encoding R122). -/
def iWord (op : BitVec 6) (rs rt : Reg) (imm : BitVec 16) : Word := op ++ rs ++ rt ++ imm

/-- J-format (30_encoding R123), and the whole sub-form of a coprocessor group (R133). -/
def jWord (op : BitVec 6) (target : BitVec 26) : Word := op ++ target

/-- The form of SYSCALL and BREAK (45_cop_system R324, R325). -/
def codeWord (code : BitVec 20) (funct : BitVec 6) : Word := 0x00#6 ++ code ++ funct

/-- The COP0 move form (30_encoding R124). -/
def cop0MoveWord (rs rt rd : Reg) : Word := 0x10#6 ++ rs ++ rt ++ rd ++ 0#11

def encode (i : Instr) : Word :=
  match i with
  | .sll rd rt shamt => rWord 0 rt rd shamt 0x00
  | .srl rd rt shamt => rWord 0 rt rd shamt 0x02
  | .sra rd rt shamt => rWord 0 rt rd shamt 0x03
  | .sllv rd rt rs => rWord rs rt rd 0 0x04
  | .srlv rd rt rs => rWord rs rt rd 0 0x06
  | .srav rd rt rs => rWord rs rt rd 0 0x07
  | .jr rs => rWord rs 0 0 0 0x08
  | .jalr rd rs => rWord rs 0 rd 0 0x09
  | .syscall code => codeWord code 0x0C
  | .brk code => codeWord code 0x0D
  | .mfhi rd => rWord 0 0 rd 0 0x10
  | .mthi rs => rWord rs 0 0 0 0x11
  | .mflo rd => rWord 0 0 rd 0 0x12
  | .mtlo rs => rWord rs 0 0 0 0x13
  | .mult rs rt => rWord rs rt 0 0 0x18
  | .multu rs rt => rWord rs rt 0 0 0x19
  | .div rs rt => rWord rs rt 0 0 0x1A
  | .divu rs rt => rWord rs rt 0 0 0x1B
  | .add rd rs rt => rWord rs rt rd 0 0x20
  | .addu rd rs rt => rWord rs rt rd 0 0x21
  | .sub rd rs rt => rWord rs rt rd 0 0x22
  | .subu rd rs rt => rWord rs rt rd 0 0x23
  | .and rd rs rt => rWord rs rt rd 0 0x24
  | .or rd rs rt => rWord rs rt rd 0 0x25
  | .xor rd rs rt => rWord rs rt rd 0 0x26
  | .nor rd rs rt => rWord rs rt rd 0 0x27
  | .slt rd rs rt => rWord rs rt rd 0 0x2A
  | .sltu rd rs rt => rWord rs rt rd 0 0x2B
  | .bltz rs imm => iWord 0x01 rs 0x00 imm
  | .bgez rs imm => iWord 0x01 rs 0x01 imm
  | .bltzal rs imm => iWord 0x01 rs 0x10 imm
  | .bgezal rs imm => iWord 0x01 rs 0x11 imm
  | .j target => jWord 0x02 target
  | .jal target => jWord 0x03 target
  | .beq rs rt imm => iWord 0x04 rs rt imm
  | .bne rs rt imm => iWord 0x05 rs rt imm
  | .blez rs imm => iWord 0x06 rs 0 imm
  | .bgtz rs imm => iWord 0x07 rs 0 imm
  | .addi rt rs imm => iWord 0x08 rs rt imm
  | .addiu rt rs imm => iWord 0x09 rs rt imm
  | .slti rt rs imm => iWord 0x0A rs rt imm
  | .sltiu rt rs imm => iWord 0x0B rs rt imm
  | .andi rt rs imm => iWord 0x0C rs rt imm
  | .ori rt rs imm => iWord 0x0D rs rt imm
  | .xori rt rs imm => iWord 0x0E rs rt imm
  | .lui rt imm => iWord 0x0F 0 rt imm
  | .lb rt base offset => iWord 0x20 base rt offset
  | .lh rt base offset => iWord 0x21 base rt offset
  | .lwl rt base offset => iWord 0x22 base rt offset
  | .lw rt base offset => iWord 0x23 base rt offset
  | .lbu rt base offset => iWord 0x24 base rt offset
  | .lhu rt base offset => iWord 0x25 base rt offset
  | .lwr rt base offset => iWord 0x26 base rt offset
  | .sb rt base offset => iWord 0x28 base rt offset
  | .sh rt base offset => iWord 0x29 base rt offset
  | .swl rt base offset => iWord 0x2A base rt offset
  | .sw rt base offset => iWord 0x2B base rt offset
  | .swr rt base offset => iWord 0x2E base rt offset
  | .mfc0 rt rd => cop0MoveWord 0x00 rt rd
  | .mtc0 rt rd => cop0MoveWord 0x04 rt rd
  | .rfe => 0x42000010#32
  | .cop1 cofun => jWord 0x11 cofun
  | .cop2 cofun => jWord 0x12 cofun
  | .cop3 cofun => jWord 0x13 cofun
  | .lwc0 rt base offset => iWord 0x30 base rt offset
  | .lwc1 rt base offset => iWord 0x31 base rt offset
  | .lwc2 rt base offset => iWord 0x32 base rt offset
  | .lwc3 rt base offset => iWord 0x33 base rt offset
  | .swc0 rt base offset => iWord 0x38 base rt offset
  | .swc1 rt base offset => iWord 0x39 base rt offset
  | .swc2 rt base offset => iWord 0x3A base rt offset
  | .swc3 rt base offset => iWord 0x3B base rt offset

end Sys2Proof
end

