-- ==== Sys2Proof/Config.lean ====
section
/-! DEFINITION. What the spec leaves to the implementation (00_scope R10) and the free values.

`Params` is the record of the OPEN parameters and of those with a default: it is plain data, held in
State and changed by no step, so that a claim holds for every value or names the one it assumes.
The `opaque` constants are the values no source gives: nothing can be proved about any of them. -/

namespace Sys2Proof

/-- A DMA channel, 0 to 6 (10_state R49). -/
abbrev Chan := Fin 7

/-- An interrupt line, 0 to 10 (10_state R48): VBLANK, GPU, CDROM, DMA, TMR0, TMR1, TMR2, PAD_MC, SIO, SPU,
LIGHTPEN. -/
abbrev Line := Fin 11

/-- The four virtual segments (20_memory R80). -/
inductive Segment where
  | kuseg | kseg0 | kseg1 | kseg2
  deriving DecidableEq, Repr

/-- An external device window the host registers on the bus (20_memory R90, R94). -/
structure Window where
  id      : Nat
  base    : Nat
  size    : Nat
  segs    : List Segment
  latency : Nat
  deriving DecidableEq, Repr

/-- BUS_POLICY: what an access to an unmapped address does (20_memory R99, R100). -/
inductive BusPolicy where
  | strict | lenient
  deriving DecidableEq, Repr

/-- IRQ_ACK_POLARITY: what a write to I_STAT clears (60_exceptions R374). -/
inductive AckPolarity where
  | write1Clears | write0Clears
  deriving DecidableEq, Repr

/-- IRQ_LINE_KIND of a line (60_exceptions R373): the controller behaves the same for both kinds. -/
inductive LineKind where
  | edge | level
  deriving DecidableEq, Repr

/-- DMA_SCHEDULE: when the DMA agent runs relative to the CPU (40_cpu_step R150, R151). -/
inductive Schedule where
  | eager | free
  deriving DecidableEq, Repr

/-- NEST_OVERFLOW: a third nested exception entry (60_exceptions R356). -/
inductive NestPolicy where
  | fault | discardOldest
  deriving DecidableEq, Repr

/-- HILO_HAZARD: a write of hi or lo within two instructions of MFHI or MFLO (42_muldiv R244). -/
inductive HazardPolicy where
  | fault | ignore
  deriving DecidableEq, Repr

/-- UNWRITTEN_REG_POLICY: a read of a register nothing has written (10_state R31). -/
inductive UnwrittenPolicy where
  | fault | draw
  deriving DecidableEq, Repr

/-- DMA_ARBITER (65_dma R419): the PlayStation-1 order, or any other function, named by a number. -/
inductive Arbiter where
  | ps1
  | other (id : Nat)
  deriving DecidableEq, Repr

/-- DIV_CORNER (42_muldiv R241): the default table, or any other function, named by a number. -/
inductive DivCorner where
  | chipTable
  | other (id : Nat)
  deriving DecidableEq, Repr

/-- The parameters of 00_scope R10 that have no single value. -/
structure Params where
  busPolicy    : BusPolicy
  openBusValue : Word
  ackPolarity  : AckPolarity
  lineKind     : Vector LineKind 11
  arbiter      : Arbiter
  schedule     : Schedule
  nestPolicy   : NestPolicy
  unwritten    : UnwrittenPolicy
  hiloHazard   : HazardPolicy
  divCorner    : DivCorner
  external     : List Window
  deriving DecidableEq, Repr

/-- The handlers of the bus map (20_memory R89, R90). -/
inductive Handler where
  | ram | spad | irq | dma | bios | cacheCtl
  | external (w : Window)
  deriving DecidableEq, Repr

/-- A core entry of the bus map: a physical range, its handler and the segments that reach it (20_memory R90). -/
structure BusEntry where
  base    : Nat
  size    : Nat
  handler : Handler
  segs    : List Segment
  deriving DecidableEq, Repr

/-- The widths the bus moves (20_memory R86). -/
inductive Width where
  | b8 | b16 | b32
  deriving DecidableEq, Repr

/-- The direction of a bus access (20_memory R100). -/
inductive Dir where
  | read | write
  deriving DecidableEq, Repr

/-- OPEN_BUS_VALUE of the reset state's parameters (20_memory R99): OPEN, so nothing is known of it. -/
opaque Config.openBusValue : Word

/-- LATENCY of a core handler (20_memory R90, R96): OPEN. An external window carries its own. -/
opaque Config.latency : Handler → Nat

/-- The free values ("draw", 00_scope R11): the k-th value drawn in a run. -/
opaque Config.freeWord : Nat → Word

/-- An arbiter other than the PlayStation-1's (65_dma R419): a position in the list of serviceable channels. -/
opaque Config.arbiterChoice : Nat → Word → List Chan → Nat

/-- A DIV_CORNER other than the default (42_muldiv R241), from the signedness and the operands: (hi, lo). -/
opaque Config.divCornerOther : Nat → Bool → Word → Word → Word × Word

end Sys2Proof
end

