-- ==== Sys2Proof/Machine/Layout.lean ====
section
/-! DEFINITION. The fixed numbers of the machine: the physical map (20_memory R89), the vectors (60_exceptions R355,
70_reset R460), the read-only PRId value and the reset values of registers (70_reset R460). -/

namespace Sys2Proof.Machine.Layout

/-! The physical map (00_scope R10, 20_memory R89). -/

def ramSize : Nat := 0x00200000
def ramWindow : Nat := 0x00800000
def spadBase : Nat := 0x1F800000
def spadSize : Nat := 0x400
def irqBase : Nat := 0x1F801070
def dmaBase : Nat := 0x1F801080
def biosBase : Nat := 0x1FC00000
def biosSize : Nat := 0x00080000
def cacheCtlBase : Nat := 0xFFFE0130

/-- The core entries of the bus map, in the order of the table of 20_memory R89. -/
def coreMap : List BusEntry :=
  [ ⟨0, ramWindow, .ram, [.kuseg, .kseg0, .kseg1]⟩,
    ⟨spadBase, spadSize, .spad, [.kuseg, .kseg0]⟩,
    ⟨irqBase, 8, .irq, [.kuseg, .kseg0, .kseg1]⟩,
    ⟨dmaBase, 0x80, .dma, [.kuseg, .kseg0, .kseg1]⟩,
    ⟨biosBase, biosSize, .bios, [.kuseg, .kseg0, .kseg1]⟩,
    ⟨cacheCtlBase, 4, .cacheCtl, [.kseg2]⟩ ]

/-! Vectors (60_exceptions R355, 70_reset R460) and PRId (10_state R42). -/

def resetVector : Word := 0xBFC00000#32
def vecGeneral : Word := 0x80000080#32
def vecBoot : Word := 0xBFC00180#32
def pridValue : Word := 0x00000002#32

/-! Reset values (70_reset R460). The bits of SR the spec calls a draw, and every register it calls unwritten or a draw,
hold 0: DESIGN CHOICE, unsafe, log entries 16 to 18. -/

/-- BEV = 1; IEc, KUc, SwC, TS = 0; every other bit a draw, taken as 0. -/
def resetSr : Word := 0x00400000#32
def resetGpr : Word := 0#32
def resetHiLo : Word := 0#32
def resetCop0 : Word := 0#32
def resetDpcr : Word := 0x07654321#32

/-- The bits of CHCR[n] a write sets (10_state R52, R53). -/
def chcrMask (n : Chan) : Word := if n = 6 then 0x51000000#32 else 0x71770703#32

/-- The bits of CHCR[n] that always read 1 (10_state R53). -/
def chcrFixed (n : Chan) : Word := if n = 6 then 0x00000002#32 else 0x00000000#32

end Sys2Proof.Machine.Layout
end

