-- ==== Sys2Proof/Machine/State.lean ====
section
/-! DEFINITION. The state of the machine as plain data: the state of 10_state (`Snapshot`), and beside it the parameters of
00_scope R10 (which no step changes), the devices' readiness, the count of 40_cpu_step R162, and four fields of the model's
own (`agenda`, `dmaOwed`, `draws`, `emitted`). -/

namespace Sys2Proof.Machine

/-- Why a step stops with a model fault (00_scope R13). Every one is safe: the machine stops where the spec says the
model stops. -/
inductive Fault where
  /-- Raised by `unmappedRead` and `unmappedWrite` under the strict policy (20_memory R100). Safe. -/
  | busFault (paddr : Word) (bytes : Nat) (dir : Dir)
  /-- Raised by `memRead` and `memWrite` for a narrow access to a core register (20_memory R104). Safe. -/
  | mmioWidth
  /-- Raised by `runDecoded` for a branch in a delay slot (40_cpu_step R160). Safe. -/
  | nestedBranch
  /-- Raised by JALR, BLTZAL and BGEZAL whose link register is their own source (43_branch_jump R264). Safe. -/
  | linkSameReg
  /-- Raised by the writers of hi and lo when HILO_HAZARD is `fault` (42_muldiv R244). Safe. -/
  | hiLoHazard
  /-- Raised by `enterException` when NEST_OVERFLOW is `fault` (60_exceptions R356). Safe. -/
  | nestOverflow
  /-- Raised by an instruction that reads a register nothing has written, when UNWRITTEN_REG_POLICY is `fault` (10_state R31).
  Safe. -/
  | unwrittenRead
  /-- Raised by `step` and `restore` when the configuration check fails (20_memory R93). Safe. -/
  | configFault
  deriving DecidableEq, Repr

/-- Why a step gives no meaning (00_scope R14). Every one is safe: nothing is claimed of the machine after it. -/
inductive Refusal where
  /-- Answered by an arm of `exec` for an instruction with no meaning yet. Safe. -/
  | notModelled (mnemonic : String)
  /-- Answered by `runDecoded` for a REGIMM word of no listed rt (30_encoding R129). Safe. -/
  | refuseRegimm
  /-- Answered by `runDecoded` for a COP0 operation of no listed form (45_cop_system R317). Safe. -/
  | refuseCop0Op
  /-- Answered by MFC0 and MTC0 of a register with no meaning (45_cop_system R317). Safe. -/
  | refuseCop0Reg
  /-- Answered by COP1 to COP3, LWCz and SWCz when coprocessor z is usable (45_cop_system R322, R323). Safe. -/
  | refuseCopz
  /-- Answered by a load while SR.IsC = 1 (44_load_store R282). Safe. -/
  | refuseIsolatedLoad
  /-- Answered by MFC0 of a breakpoint register and MTC0 of a nonzero DCIC (45_cop_system R318). Safe. -/
  | refuseDebug
  /-- Answered by a CPU or DMA step in a state whose sticky refusal mark is set (00_scope R14, 40_cpu_step R152). Safe. -/
  | markedRefused
  deriving DecidableEq, Repr

/-- The general registers and the hidden `written` flag of each (10_state R30, R31). Entry 0 of both is never used. -/
structure RegFile where
  vals    : Vector Word 32
  written : Vector Bool 32
  deriving DecidableEq, Repr

/-- A write of one general register, now or through the pending-load slot (10_state R33, 40_cpu_step R155). -/
structure RegWrite where
  reg : Reg
  val : Word
  deriving DecidableEq, Repr

/-- The stored fields of CAUSE (10_state R38); its other bits read 0 and IP[2] is live. -/
structure Cause where
  excCode : BitVec 5
  ip      : BitVec 2
  ce      : BitVec 2
  bd      : Bool
  deriving DecidableEq, Repr

/-- An exception with its information (60_exceptions R340). -/
inductive Exc where
  | int
  | adEL (badVAddr : Word)
  | adES (badVAddr : Word)
  | sys
  | bp
  | ri
  | cpU (cop : BitVec 2)
  | ov
  deriving DecidableEq, Repr

/-- The stored fields of DICR (10_state R55); MFLAG is computed and bits 14:6 read 0. -/
structure Dicr where
  unk   : BitVec 6
  force : Bool
  ie    : BitVec 7
  mie   : Bool
  flag  : BitVec 7
  deriving DecidableEq, Repr

/-- The reasons of a DMA transfer-level fault (65_dma R431). -/
inductive DmaFault where
  | address | zeroBlock | linkPointer | linkDirection | badSync | modeChange
  deriving DecidableEq, Repr

/-- A diagnostic of `dma_diag` (65_dma R430). -/
structure Diag where
  reason : DmaFault
  madr   : BitVec 24
  chcr   : Word
  deriving DecidableEq, Repr

/-- One DMA channel: its registers (10_state R50 to R53), its hidden state (R56) and its diagnostics (R57). No rule writes
`wkAddr`, `llLeft` or `llNode`, because a manual transfer and a linked-list node are each one atomic unit (log 24). -/
structure Channel where
  madr   : BitVec 24
  bcr    : Word
  chcr   : Word
  active : Bool
  wkAddr : BitVec 24
  wkLeft : BitVec 17
  llLeft : BitVec 8
  llNode : BitVec 24
  diag   : List Diag
  deriving DecidableEq, Repr

/-- What the block does to an external device (20_memory R94, 65_dma R402). -/
inductive DevEvent where
  | busRead (window : Nat) (offset : Nat) (width : Width)
  | busWrite (window : Nat) (offset : Nat) (width : Width) (value : Word)
  | dmaWord (chan : Chan) (value : Word)
  deriving DecidableEq, Repr

/-- The state of 10_state: what a save-state holds (70_reset R464). Comments name the rule of 10_state. -/
structure Snapshot where
  -- CPU
  gpr       : RegFile              -- R30, R31
  hi        : Word                 -- R32
  lo        : Word                 -- R32
  hiWritten : Bool                 -- R31
  loWritten : Bool                 -- R31
  pc        : Word                 -- R35
  ld        : Option RegWrite      -- R33
  br        : Option Word          -- R34
  hiloAge   : Fin 3                -- R63
  -- COP0
  sr        : Word                 -- R36, R37
  cause     : Cause                -- R38, R39
  epc       : Word                 -- R40
  badVAddr  : Word                 -- R41
  bpc       : Word                 -- R43, register 3
  bda       : Word                 -- R43, register 5
  dcic      : Word                 -- R43, register 7
  bdam      : Word                 -- R43, register 9
  bpcm      : Word                 -- R43, register 11
  excDepth  : Fin 3                -- R45
  -- interrupt controller
  iStat     : BitVec 11            -- R46
  iMask     : BitVec 11            -- R47
  -- DMA engine
  dma       : Vector Channel 7     -- R49 to R53, R56, R57
  dpcr      : Word                 -- R54
  dicr      : Dicr                 -- R55
  -- memories: RAM, SPAD and BIOS, by physical address
  mem       : List Host.Cell       -- R58
  cacheCtl  : Word                 -- R58
  -- bookkeeping
  cycles    : Nat                  -- R59
  faults    : List Fault           -- R60
  refused   : Bool                 -- R60
  deriving DecidableEq, Repr

/-- A register the host may name by introspection (20_memory R108): a general register, hi, lo, the pc, or a COP0 register by
its number (10_state R44). -/
inductive HostReg where
  | gpr (reg : Reg)
  | hi
  | lo
  | pc
  | cop0 (reg : Reg)
  deriving DecidableEq, Repr

/-- A transition of 40_cpu_step R151, as the agenda names it. -/
inductive Turn where
  /-- A CPU step. -/
  | cpu
  /-- A DMA step taken by choice: under DMA_SCHEDULE = free whenever it is enabled, under eager only while step() owes it. -/
  | dma
  /-- A device raises an interrupt line (60_exceptions R372): any of the eleven, line 3 of the DMA engine among them (DESIGN CHOICE,
  log 33). -/
  | raise (line : Line)
  /-- Device n changes its DMA readiness (65_dma R402). -/
  | setReady (chan : Chan) (ready : Bool)
  /-- The host calls reset() (70_reset R463). -/
  | hostReset
  /-- The host writes memory or a device register by introspection (20_memory R108). -/
  | poke (vaddr : Word) (width : Width) (value : Word)
  /-- The host writes a register by introspection (20_memory R108). -/
  | pokeReg (reg : HostReg) (value : Word)
  /-- The host restores a save-state (70_reset R464). -/
  | restore (saved : Snapshot)
  deriving DecidableEq, Repr

/-- The machine: the state of 10_state, and what stands beside it. -/
structure State extends Snapshot where
  -- parameters, changed by no step (00_scope R10, 10_state R61)
  cfg       : Params
  -- inputs and records
  dmaReady  : Vector Bool 7        -- 65_dma R402: an input of the devices
  busCalls  : Nat                  -- 40_cpu_step R162: handler calls of the last CPU step
  -- the model's own
  agenda    : List Turn            -- log 1: what comes next, other than the default schedule; finite, and no step adds to it
  dmaOwed   : Bool                 -- log 2: a DMA unit comes before the next CPU step
  draws     : Nat                  -- log 13: free values taken so far
  emitted   : List DevEvent        -- log 15: delivered to external devices, oldest first
  deriving DecidableEq, Repr

/-- The parameters of the state after reset: one choice of each (log entries 4 to 10, 12, 14 and 25; unsafe for a claim about a run
from reset that does not name the value; a claim over all states covers every value). -/
def Params.reset : Params where
  busPolicy    := .lenient
  openBusValue := Config.openBusValue
  ackPolarity  := .write0Clears
  lineKind     := Vector.replicate 11 .edge
  arbiter      := .ps1
  schedule     := .eager
  nestPolicy   := .discardOldest
  unwritten    := .draw
  hiloHazard   := .fault
  divCorner    := .chipTable
  external     := []

/-- A channel after reset (70_reset R460). -/
def Channel.reset (n : Chan) : Channel where
  madr   := 0
  bcr    := 0
  chcr   := Layout.chcrFixed n
  active := false
  wkAddr := 0
  wkLeft := 0
  llLeft := 0
  llNode := 0
  diag   := []

/-- The state of 10_state right after power-on and reset (70_reset R460, R461). -/
def Snapshot.reset : Snapshot where
  gpr       := ⟨Vector.replicate 32 Layout.resetGpr, Vector.replicate 32 false⟩
  hi        := Layout.resetHiLo
  lo        := Layout.resetHiLo
  hiWritten := false
  loWritten := false
  pc        := Layout.resetVector
  ld        := none
  br        := none
  hiloAge   := 0
  sr        := Layout.resetSr
  cause     := ⟨0, 0, 0, false⟩
  epc       := Layout.resetCop0
  badVAddr  := Layout.resetCop0
  bpc       := Layout.resetCop0
  bda       := Layout.resetCop0
  dcic      := Layout.resetCop0
  bdam      := Layout.resetCop0
  bpcm      := Layout.resetCop0
  excDepth  := 0
  iStat     := 0
  iMask     := 0
  dma       := #v[Channel.reset 0, Channel.reset 1, Channel.reset 2, Channel.reset 3, Channel.reset 4,
                  Channel.reset 5, Channel.reset 6]
  dpcr      := Layout.resetDpcr
  dicr      := ⟨0, false, 0, false, 0⟩
  mem       := []
  cacheCtl  := Layout.resetCop0
  cycles    := 0
  faults    := []
  refused   := false

/-- The machine right after power-on and reset (70_reset R460, R461): no device is ready, nothing is on the agenda. -/
def State.reset : State where
  toSnapshot := Snapshot.reset
  cfg        := Params.reset
  dmaReady   := Vector.replicate 7 false
  busCalls   := 0
  agenda     := []
  dmaOwed    := false
  draws      := 0
  emitted    := []

end Sys2Proof.Machine
end

