-- ==== Sys2Proof/Machine/Ops.lean ====
section
/-! DEFINITION. The named operations over registers and memory, the fields of SR, retiring an instruction, taking an
exception and returning from one. Every meaning is written over these. -/

namespace Sys2Proof.Machine

/-- What a meaning answers. -/
abbrev Result := Host.Outcome State Fault Refusal

/-! General registers (10_state R30, R31). -/

/-- x[0] reads 0. A register nothing has written holds its reset value, which is what UNWRITTEN_REG_POLICY = draw reads
(10_state R31, log 16); under the policy `fault` the meanings check `canRead` first. -/
def RegFile.read (f : RegFile) (r : Reg) : Word :=
  if r = 0 then 0 else f.vals.get r.toFin

/-- A write to x[0] is discarded; any other write sets the register and its `written` flag. -/
def RegFile.write (f : RegFile) (r : Reg) (v : Word) : RegFile :=
  if r = 0 then f
  else ⟨f.vals.set r.toNat v r.isLt, f.written.set r.toNat true r.isLt⟩

/-- The write an optional `RegWrite` stands for. -/
def RegFile.apply (f : RegFile) (w : Option RegWrite) : RegFile :=
  match w with
  | none => f
  | some w => f.write w.reg w.val

/-- `x[r]` of the spec's notation (00_scope R11). -/
def State.reg (s : State) (r : Reg) : Word := s.gpr.read r

/-- A read of x[r] finds a value: x[0], a register something has written, or any under the policy `draw` (10_state R31). -/
def canRead (s : State) (r : Reg) : Bool := r == 0 || s.gpr.written.get r.toFin || s.cfg.unwritten == .draw

/-- Every source register of the list can be read. -/
def canReadAll (s : State) (rs : List Reg) : Bool := rs.all (canRead s)

/-- hi can be read (10_state R31). -/
def canReadHi (s : State) : Bool := s.hiWritten || s.cfg.unwritten == .draw

/-- lo can be read (10_state R31). -/
def canReadLo (s : State) : Bool := s.loWritten || s.cfg.unwritten == .draw

/-- What follows a read of registers: the fault UnwrittenRead when one of them cannot be read, before anything that uses its value
(10_state R31, 60_exceptions R360). What comes before the read is log 11. -/
def afterRead (ok : Bool) (run : Result) : Result := if ok then run else .fault .unwrittenRead

/-! Memory cells: addresses strictly rising, no cell equal to what an unlisted address reads as. -/

/-- What a byte of RAM, SPAD or BIOS that nothing has written or loaded reads as (DESIGN CHOICE, log 20). -/
def unlistedByte : Byte := 0

def readByte (m : List Host.Cell) (a : Nat) : Byte :=
  match m with
  | [] => unlistedByte
  | (k, b) :: rest => if k = a then b else readByte rest a

def dropCell (a : Nat) (m : List Host.Cell) : List Host.Cell :=
  match m with
  | [] => []
  | (k, b) :: rest => if k = a then dropCell a rest else (k, b) :: dropCell a rest

def insertCell (a : Nat) (v : Byte) (m : List Host.Cell) : List Host.Cell :=
  match m with
  | [] => [(a, v)]
  | (k, b) :: rest => if a < k then (a, v) :: (k, b) :: rest else (k, b) :: insertCell a v rest

def writeByte (m : List Host.Cell) (a : Nat) (v : Byte) : List Host.Cell :=
  if v = unlistedByte then dropCell a m else insertCell a v (dropCell a m)

/-- The canonical form. -/
abbrev Memory.wf (m : List Host.Cell) : Prop :=
  m.Pairwise (fun x y => x.1 < y.1) ∧ ∀ c ∈ m, c.2 ≠ unlistedByte

/-- The bytes of a width. -/
def widthBytes (w : Width) : Nat :=
  match w with
  | .b8 => 1
  | .b16 => 2
  | .b32 => 4

/-- The low bits of `v` that a width moves, as an unsigned number (20_memory R96, R97). -/
def clip (w : Width) (v : Word) : Word :=
  match w with
  | .b8 => (v.setWidth 8).setWidth 32
  | .b16 => (v.setWidth 16).setWidth 32
  | .b32 => v

/-- A little-endian read of memory cells (20_memory R84), zero-extended. -/
def readMem (m : List Host.Cell) (a : Nat) (w : Width) : Word :=
  match w with
  | .b8 => (readByte m a).setWidth 32
  | .b16 => (readByte m (a + 1) ++ readByte m a).setWidth 32
  | .b32 => wordOfBytes (readByte m a) (readByte m (a + 1)) (readByte m (a + 2)) (readByte m (a + 3))

/-- The bytes `v` puts at an address and those after it. -/
def storedBytes (w : Width) (v : Word) : List Byte := (bytesOfWord v).take (widthBytes w)

def writeBytes (m : List Host.Cell) (a : Nat) (bs : List Byte) : List Host.Cell :=
  match bs with
  | [] => m
  | b :: rest => writeBytes (writeByte m a b) (a + 1) rest

/-- A little-endian write of memory cells (20_memory R84). -/
def writeMem (m : List Host.Cell) (a : Nat) (w : Width) (v : Word) : List Host.Cell :=
  writeBytes m a (storedBytes w v)

/-! The fields of SR (10_state R36). -/

def srIEc (s : State) : Bool := s.sr.getLsbD 0
def srKUc (s : State) : Bool := s.sr.getLsbD 1
def srIM (s : State) : BitVec 8 := s.sr.extractLsb' 8 8
def srIsC (s : State) : Bool := s.sr.getLsbD 16
def srBEV (s : State) : Bool := s.sr.getLsbD 22

/-- SR.CUz: bit 28 + z. -/
def srCU (s : State) (z : BitVec 2) : Bool := s.sr.getLsbD (28 + z.toNat)

/-! Free values (00_scope R11, log 13). -/

/-- The next free value. -/
def freeValue (s : State) : Word := Config.freeWord s.draws

/-- One free value has been taken. -/
def noteDraw (s : State) : State := { s with draws := s.draws + 1 }

/-- An access or a word has been delivered to an external device (20_memory R94, 65_dma R402). -/
def emit (e : DevEvent) (s : State) : State := { s with emitted := s.emitted ++ [e] }

/-! Retiring an instruction (40_cpu_step R155 to R159, R166). -/

/-- The effect record E of 40_cpu_step R155, less the exception and the COP0 writes, which the meanings make themselves. -/
structure Effect where
  /-- E.wr: an immediate register write. -/
  wr : Option RegWrite := none
  /-- E.ld: a delayed register write. -/
  ld : Option RegWrite := none
  /-- E.br: the target of a branch to schedule. -/
  br : Option Word := none
  /-- A write of hi. -/
  hi : Option Word := none
  /-- A write of lo. -/
  lo : Option Word := none
  /-- The instruction is MFHI or MFLO (10_state R63). -/
  readsHiLo : Bool := false
  deriving DecidableEq, Repr

/-- An optional write names the register. -/
def names (w : Option RegWrite) (r : Reg) : Bool :=
  match w with
  | none => false
  | some w => w.reg == r

/-- The pending load that becomes visible when `E` retires: the slot's, unless `E` writes the same register now or through
the slot (40_cpu_step R158, R159). -/
def committedLoad (e : Effect) (s : State) : Option RegWrite :=
  match s.ld with
  | none => none
  | some p => if names e.wr p.reg || names e.ld p.reg then none else some p

/-- `hilo_age` of a retiring instruction (10_state R63). -/
def agedHiLo (e : Effect) (s : State) : Fin 3 :=
  if e.readsHiLo then 2 else ⟨s.hiloAge.val - 1, by omega⟩

/-- The pc after a retiring instruction (40_cpu_step R156): after a branch the delay slot, after a delay slot the target. -/
def nextPc (e : Effect) (s : State) : Word :=
  match e.br, s.br with
  | none, some target => target
  | _, _ => s.pc + 4

/-- The retire of 40_cpu_step R156, R158 and R166. -/
def retire (e : Effect) (s : State) : State :=
  { s with
    gpr := (s.gpr.apply (committedLoad e s)).apply e.wr
    ld := e.ld
    hi := e.hi.getD s.hi
    lo := e.lo.getD s.lo
    hiWritten := s.hiWritten || e.hi.isSome
    loWritten := s.loWritten || e.lo.isSome
    hiloAge := agedHiLo e s
    pc := nextPc e s
    br := e.br }

/-! Exceptions (60_exceptions). -/

/-- ExcCode (60_exceptions R340). -/
def excCode (x : Exc) : BitVec 5 :=
  match x with
  | .int => 0
  | .adEL _ => 4
  | .adES _ => 5
  | .sys => 8
  | .bp => 9
  | .ri => 10
  | .cpU _ => 11
  | .ov => 12

/-- BADVADDR after the entry (60_exceptions R353): only AdEL and AdES write it. -/
def excBadVAddr (x : Exc) (old : Word) : Word :=
  match x with
  | .adEL a => a
  | .adES a => a
  | _ => old

/-- CAUSE.CE after the entry (60_exceptions R353): the coprocessor number for CpU, a free value otherwise. -/
def excCe (x : Exc) (s : State) : BitVec 2 :=
  match x with
  | .cpU z => z
  | _ => (freeValue s).setWidth 2

/-- How many free values the entry takes. -/
def excDraws (x : Exc) : Nat :=
  match x with
  | .cpU _ => 0
  | _ => 1

/-- The push of the mode stack: `SR[5:0] <- SR[3:0] || 0b00` (60_exceptions R350, R354). -/
def pushMode (sr : Word) : Word := sr.extractLsb' 6 26 ++ sr.extractLsb' 0 4 ++ 0#2

/-- The pop of RFE: `SR[3:0] <- SR[5:2]`, SR[5:4] kept (45_cop_system R316). -/
def popMode (sr : Word) : Word := sr.extractLsb' 4 28 ++ sr.extractLsb' 2 4

/-- One more exception entry not matched by an RFE, saturating at 2 (10_state R45). -/
def deeper (d : Fin 3) : Fin 3 := ⟨min (d.val + 1) 2, by omega⟩

/-- One less, saturating at 0 (10_state R45, 45_cop_system R316). -/
def shallower (d : Fin 3) : Fin 3 := ⟨d.val - 1, by omega⟩

/-- The handler's address (60_exceptions R355). -/
def excVector (s : State) : Word := if srBEV s then Layout.vecBoot else Layout.vecGeneral

/-- The state after the entry actions of 60_exceptions R350. The exception is raised by the instruction at `pc`, which is in
a delay slot exactly when the branch slot is valid (R352). -/
def excEntry (x : Exc) (s : State) : State :=
  { s with
    gpr := s.gpr.apply s.ld
    ld := none
    br := none
    epc := if s.br.isSome then s.pc - 4 else s.pc
    cause := ⟨excCode x, s.cause.ip, excCe x s, s.br.isSome⟩
    draws := s.draws + excDraws x
    badVAddr := excBadVAddr x s.badVAddr
    sr := pushMode s.sr
    excDepth := deeper s.excDepth
    pc := excVector s }

/-- Taking an exception (60_exceptions R350): NestCheck (R356), then the entry. -/
def enterException (x : Exc) (s : State) : Result :=
  if s.excDepth = 2 ∧ s.cfg.nestPolicy = .fault then .fault .nestOverflow
  else .next (excEntry x s)

/-- What RFE does to COP0 (45_cop_system R316): the pop, and one less exception entry open. -/
def leaveException (s : State) : State :=
  { s with sr := popMode s.sr, excDepth := shallower s.excDepth }

end Sys2Proof.Machine
end

