-- ==== Sys2Proof/Machine/Flags.lean ====
section
/-! DEFINITION. The conditions the arithmetic family computes. There are no flags or condition codes (41_alu R180):
a comparison writes 0 or 1 into a general register, and signed overflow of ADD, ADDI and SUB traps (41_alu R181). -/

namespace Sys2Proof.Machine

/-- An integer outside the signed 32-bit range (41_alu R181). -/
def outOfRange (r : Int) : Bool := !(decide (-2147483648 ≤ r) && decide (r ≤ 2147483647))

/-- Signed overflow of `a + b` (41_alu R181). -/
def addOverflows (a b : Word) : Bool := outOfRange (a.toInt + b.toInt)

/-- Signed overflow of `a - b` (41_alu R181). -/
def subOverflows (a b : Word) : Bool := outOfRange (a.toInt - b.toInt)

/-- The 0 or 1 a comparison writes (41_alu R180). -/
def boolWord (b : Bool) : Word := if b then 1 else 0

/-- The signed comparison of SLT and SLTI (41_alu R190, R194). -/
def ltSigned (a b : Word) : Bool := decide (a.toInt < b.toInt)

/-- The unsigned comparison of SLTU and SLTIU (41_alu R191, R195). -/
def ltUnsigned (a b : Word) : Bool := decide (a.toNat < b.toNat)

end Sys2Proof.Machine
end

