-- ==== Sys2Proof/Machine/Operands.lean ====
section
/-! DEFINITION. Operand assembly (30_encoding R125), branch targets (43_branch_jump R250), the class Branch (30_encoding
R135), and the merges of the unaligned loads and stores (44_load_store R290, R291, R297, R298). -/

namespace Sys2Proof.Machine

/-- The signed immediate. -/
def signedImm (imm : BitVec 16) : Word := imm.signExtend 32

/-- The logical immediate. -/
def logicalImm (imm : BitVec 16) : Word := imm.setWidth 32

/-- The upper immediate of LUI. -/
def upperImm (imm : BitVec 16) : Word := imm ++ 0#16

/-- The variable shift amount: bits 4:0 of x[rs]. -/
def varShamt (v : Word) : BitVec 5 := v.setWidth 5

/-- `pc + 4 + sext_32(imm16 || 0b00)`. -/
def branchTarget (pc : Word) (imm : BitVec 16) : Word := pc + 4 + (imm ++ 0#2).signExtend 32

/-- `(pc + 4)[31:28] || target26 || 0b00`. -/
def jumpTarget (pc : Word) (target : BitVec 26) : Word := (pc + 4).extractLsb' 28 4 ++ target ++ 0#2

/-- The address after the delay slot: the link value, and the target of a branch that is not taken. -/
def afterSlot (pc : Word) : Word := pc + 8

/-- The effective address of a load or store (44_load_store R280). -/
def effAddr (base : Reg) (offset : BitVec 16) (s : State) : Word := s.reg base + signedImm offset

/-- The aligned word containing an address (44_load_store R289, R296). -/
def alignedWord (ea : Word) : Word := ea &&& 0xFFFFFFFC#32

/-- Bits 1:0 of an address. -/
def byteInWord (ea : Word) : Nat := (ea.setWidth 2).toNat

/-- The register value LWL and LWR merge into (44_load_store R292). -/
def pendingValue (rt : Reg) (s : State) : Word :=
  match s.ld with
  | some p => if p.reg = rt then p.val else s.reg rt
  | none => s.reg rt

/-- That value can be read: it is pending, or x[rt] can (44_load_store R292, 10_state R31). -/
def canMerge (rt : Reg) (s : State) : Bool := names s.ld rt || canRead s rt

/-- 44_load_store R290. -/
def lwlMerge (k : Nat) (cur w : Word) : Word :=
  match k with
  | 0 => (cur &&& 0x00FFFFFF#32) ||| (w <<< 24)
  | 1 => (cur &&& 0x0000FFFF#32) ||| (w <<< 16)
  | 2 => (cur &&& 0x000000FF#32) ||| (w <<< 8)
  | _ => w

/-- 44_load_store R291. -/
def lwrMerge (k : Nat) (cur w : Word) : Word :=
  match k with
  | 0 => w
  | 1 => (cur &&& 0xFF000000#32) ||| (w >>> 8)
  | 2 => (cur &&& 0xFFFF0000#32) ||| (w >>> 16)
  | _ => (cur &&& 0xFFFFFF00#32) ||| (w >>> 24)

/-- Byte `i` of a register, byte 0 the least significant. -/
def regByte (r : Word) (i : Nat) : Byte := r.extractLsb' (8 * i) 8

/-- The bytes SWL writes, each with its place in the aligned word: the top k + 1 bytes of the register at bytes 0 to k
(44_load_store R297). -/
def swlBytes (k : Nat) (r : Word) : List (Nat × Byte) :=
  match k with
  | 0 => [(0, regByte r 3)]
  | 1 => [(0, regByte r 2), (1, regByte r 3)]
  | 2 => [(0, regByte r 1), (1, regByte r 2), (2, regByte r 3)]
  | _ => [(0, regByte r 0), (1, regByte r 1), (2, regByte r 2), (3, regByte r 3)]

/-- The bytes SWR writes: the low 4 - k bytes of the register at bytes k to 3 (44_load_store R298). -/
def swrBytes (k : Nat) (r : Word) : List (Nat × Byte) :=
  match k with
  | 0 => [(0, regByte r 0), (1, regByte r 1), (2, regByte r 2), (3, regByte r 3)]
  | 1 => [(1, regByte r 0), (2, regByte r 1), (3, regByte r 2)]
  | 2 => [(2, regByte r 0), (3, regByte r 1)]
  | _ => [(3, regByte r 0)]

/-- The class Branch (30_encoding R135). -/
def isBranch (i : Instr) : Bool :=
  match i with
  | .j _ | .jal _ | .jr _ | .jalr _ _ | .beq _ _ _ | .bne _ _ _ | .blez _ _ | .bgtz _ _ | .bltz _ _ | .bgez _ _
  | .bltzal _ _ | .bgezal _ _ => true
  | .sll _ _ _ | .srl _ _ _ | .sra _ _ _ | .sllv _ _ _ | .srlv _ _ _ | .srav _ _ _ | .syscall _ | .brk _
  | .mfhi _ | .mthi _ | .mflo _ | .mtlo _ | .mult _ _ | .multu _ _ | .div _ _ | .divu _ _ | .add _ _ _
  | .addu _ _ _ | .sub _ _ _ | .subu _ _ _ | .and _ _ _ | .or _ _ _ | .xor _ _ _ | .nor _ _ _ | .slt _ _ _
  | .sltu _ _ _ | .addi _ _ _ | .addiu _ _ _ | .slti _ _ _ | .sltiu _ _ _ | .andi _ _ _ | .ori _ _ _
  | .xori _ _ _ | .lui _ _ | .lb _ _ _ | .lh _ _ _ | .lwl _ _ _ | .lw _ _ _ | .lbu _ _ _ | .lhu _ _ _
  | .lwr _ _ _ | .sb _ _ _ | .sh _ _ _ | .swl _ _ _ | .sw _ _ _ | .swr _ _ _ | .mfc0 _ _ | .mtc0 _ _ | .rfe
  | .cop1 _ | .cop2 _ | .cop3 _ | .lwc0 _ _ _ | .lwc1 _ _ _ | .lwc2 _ _ _ | .lwc3 _ _ _ | .swc0 _ _ _
  | .swc1 _ _ _ | .swc2 _ _ _ | .swc3 _ _ _ => false

end Sys2Proof.Machine
end

