-- ==== Sys2Proof/Machine/Alu.lean ====
section
/-! DEFINITION. Arithmetic, logical and shift instructions (41_alu). Every source is read before the destination is
written (`afterRead`: 10_state R31); a result for x[0] is discarded by the register file (41_alu R180). -/

namespace Sys2Proof.Machine

/-- Retire with an immediate write of one register. -/
def retireWith (r : Reg) (v : Word) (s : State) : Result := .next (retire { wr := some ⟨r, v⟩ } s)

/-- An instruction that traps on signed overflow before its write (41_alu R181). -/
def retireUnless (overflow : Bool) (r : Reg) (v : Word) (s : State) : Result :=
  if overflow then enterException .ov s else retireWith r v s

/-! Register-register (R182 to R191). -/

/-- R182. -/
def execAdd (rd rs rt : Reg) (s : State) : Result :=
  afterRead (canReadAll s [rs, rt]) (retireUnless (addOverflows (s.reg rs) (s.reg rt)) rd (s.reg rs + s.reg rt) s)

/-- R183. -/
def execAddu (rd rs rt : Reg) (s : State) : Result :=
  afterRead (canReadAll s [rs, rt]) (retireWith rd (s.reg rs + s.reg rt) s)

/-- R184. -/
def execSub (rd rs rt : Reg) (s : State) : Result :=
  afterRead (canReadAll s [rs, rt]) (retireUnless (subOverflows (s.reg rs) (s.reg rt)) rd (s.reg rs - s.reg rt) s)

/-- R185. -/
def execSubu (rd rs rt : Reg) (s : State) : Result :=
  afterRead (canReadAll s [rs, rt]) (retireWith rd (s.reg rs - s.reg rt) s)

/-- R186. -/
def execAnd (rd rs rt : Reg) (s : State) : Result :=
  afterRead (canReadAll s [rs, rt]) (retireWith rd (s.reg rs &&& s.reg rt) s)

/-- R187. -/
def execOr (rd rs rt : Reg) (s : State) : Result :=
  afterRead (canReadAll s [rs, rt]) (retireWith rd (s.reg rs ||| s.reg rt) s)

/-- R188. -/
def execXor (rd rs rt : Reg) (s : State) : Result :=
  afterRead (canReadAll s [rs, rt]) (retireWith rd (s.reg rs ^^^ s.reg rt) s)

/-- R189. -/
def execNor (rd rs rt : Reg) (s : State) : Result :=
  afterRead (canReadAll s [rs, rt]) (retireWith rd (~~~(s.reg rs ||| s.reg rt)) s)

/-- R190. -/
def execSlt (rd rs rt : Reg) (s : State) : Result :=
  afterRead (canReadAll s [rs, rt]) (retireWith rd (boolWord (ltSigned (s.reg rs) (s.reg rt))) s)

/-- R191. -/
def execSltu (rd rs rt : Reg) (s : State) : Result :=
  afterRead (canReadAll s [rs, rt]) (retireWith rd (boolWord (ltUnsigned (s.reg rs) (s.reg rt))) s)

/-! Register-immediate (R192 to R199). -/

/-- R192. -/
def execAddi (rt rs : Reg) (imm : BitVec 16) (s : State) : Result :=
  afterRead (canReadAll s [rs]) (retireUnless (addOverflows (s.reg rs) (signedImm imm)) rt (s.reg rs + signedImm imm) s)

/-- R193. -/
def execAddiu (rt rs : Reg) (imm : BitVec 16) (s : State) : Result :=
  afterRead (canReadAll s [rs]) (retireWith rt (s.reg rs + signedImm imm) s)

/-- R194. -/
def execSlti (rt rs : Reg) (imm : BitVec 16) (s : State) : Result :=
  afterRead (canReadAll s [rs]) (retireWith rt (boolWord (ltSigned (s.reg rs) (signedImm imm))) s)

/-- R195. -/
def execSltiu (rt rs : Reg) (imm : BitVec 16) (s : State) : Result :=
  afterRead (canReadAll s [rs]) (retireWith rt (boolWord (ltUnsigned (s.reg rs) (signedImm imm))) s)

/-- R196. -/
def execAndi (rt rs : Reg) (imm : BitVec 16) (s : State) : Result :=
  afterRead (canReadAll s [rs]) (retireWith rt (s.reg rs &&& logicalImm imm) s)

/-- R197. -/
def execOri (rt rs : Reg) (imm : BitVec 16) (s : State) : Result :=
  afterRead (canReadAll s [rs]) (retireWith rt (s.reg rs ||| logicalImm imm) s)

/-- R198. -/
def execXori (rt rs : Reg) (imm : BitVec 16) (s : State) : Result :=
  afterRead (canReadAll s [rs]) (retireWith rt (s.reg rs ^^^ logicalImm imm) s)

/-- R199. -/
def execLui (rt : Reg) (imm : BitVec 16) (s : State) : Result := retireWith rt (upperImm imm) s

/-! Shifts (R200 to R205). -/

/-- R200. -/
def execSll (rd rt : Reg) (shamt : BitVec 5) (s : State) : Result :=
  afterRead (canReadAll s [rt]) (retireWith rd (s.reg rt <<< shamt.toNat) s)

/-- R201. -/
def execSrl (rd rt : Reg) (shamt : BitVec 5) (s : State) : Result :=
  afterRead (canReadAll s [rt]) (retireWith rd (s.reg rt >>> shamt.toNat) s)

/-- R202. -/
def execSra (rd rt : Reg) (shamt : BitVec 5) (s : State) : Result :=
  afterRead (canReadAll s [rt]) (retireWith rd ((s.reg rt).sshiftRight shamt.toNat) s)

/-- R203. -/
def execSllv (rd rt rs : Reg) (s : State) : Result :=
  afterRead (canReadAll s [rs, rt]) (retireWith rd (s.reg rt <<< (varShamt (s.reg rs)).toNat) s)

/-- R204. -/
def execSrlv (rd rt rs : Reg) (s : State) : Result :=
  afterRead (canReadAll s [rs, rt]) (retireWith rd (s.reg rt >>> (varShamt (s.reg rs)).toNat) s)

/-- R205. -/
def execSrav (rd rt rs : Reg) (s : State) : Result :=
  afterRead (canReadAll s [rs, rt]) (retireWith rd ((s.reg rt).sshiftRight (varShamt (s.reg rs)).toNat) s)

end Sys2Proof.Machine
end

