-- ==== Sys2Proof/Machine/Branch.lean ====
section
/-! DEFINITION. Branches and jumps (43_branch_jump). Each schedules the branch slot; a branch that is not taken schedules the
address after its delay slot (43_branch_jump R250, 40_cpu_step R157). No target is checked for alignment here. -/

namespace Sys2Proof.Machine

/-- Retire with a scheduled target and no link. -/
def schedule (target : Word) (s : State) : Result := .next (retire { br := some target } s)

/-- Retire with a scheduled target and the link value `pc + 8` in register r, written at once (43_branch_jump R250). -/
def scheduleLink (r : Reg) (target : Word) (s : State) : Result :=
  .next (retire { wr := some ⟨r, afterSlot s.pc⟩, br := some target } s)

/-- The scheduled target of a conditional branch. -/
def condTarget (taken : Bool) (imm : BitVec 16) (s : State) : Word :=
  if taken then branchTarget s.pc imm else afterSlot s.pc

/-- The link register of JAL, BLTZAL and BGEZAL (10_state R30). -/
def linkReg : Reg := 31

/-- R252. -/
def execJ (target : BitVec 26) (s : State) : Result := schedule (jumpTarget s.pc target) s

/-- R253. -/
def execJal (target : BitVec 26) (s : State) : Result := scheduleLink linkReg (jumpTarget s.pc target) s

/-- R254. -/
def execJr (rs : Reg) (s : State) : Result :=
  afterRead (canReadAll s [rs]) (schedule (s.reg rs) s)

/-- R255, R264. -/
def execJalr (rd rs : Reg) (s : State) : Result :=
  if rd = rs ∧ rd ≠ 0 then .fault .linkSameReg
  else afterRead (canReadAll s [rs]) (scheduleLink rd (s.reg rs) s)

/-- R256. -/
def execBeq (rs rt : Reg) (imm : BitVec 16) (s : State) : Result :=
  afterRead (canReadAll s [rs, rt]) (schedule (condTarget (s.reg rs == s.reg rt) imm s) s)

/-- R257. -/
def execBne (rs rt : Reg) (imm : BitVec 16) (s : State) : Result :=
  afterRead (canReadAll s [rs, rt]) (schedule (condTarget (s.reg rs != s.reg rt) imm s) s)

/-- R258. -/
def execBlez (rs : Reg) (imm : BitVec 16) (s : State) : Result :=
  afterRead (canReadAll s [rs]) (schedule (condTarget (decide ((s.reg rs).toInt ≤ 0)) imm s) s)

/-- R259. -/
def execBgtz (rs : Reg) (imm : BitVec 16) (s : State) : Result :=
  afterRead (canReadAll s [rs]) (schedule (condTarget (decide (0 < (s.reg rs).toInt)) imm s) s)

/-- R260. -/
def execBltz (rs : Reg) (imm : BitVec 16) (s : State) : Result :=
  afterRead (canReadAll s [rs]) (schedule (condTarget (decide ((s.reg rs).toInt < 0)) imm s) s)

/-- R261. -/
def execBgez (rs : Reg) (imm : BitVec 16) (s : State) : Result :=
  afterRead (canReadAll s [rs]) (schedule (condTarget (decide (0 ≤ (s.reg rs).toInt)) imm s) s)

/-- R262, R264: links whether or not the branch is taken. -/
def execBltzal (rs : Reg) (imm : BitVec 16) (s : State) : Result :=
  if rs = linkReg then .fault .linkSameReg
  else afterRead (canReadAll s [rs]) (scheduleLink linkReg (condTarget (decide ((s.reg rs).toInt < 0)) imm s) s)

/-- R263, R264: links whether or not the branch is taken. -/
def execBgezal (rs : Reg) (imm : BitVec 16) (s : State) : Result :=
  if rs = linkReg then .fault .linkSameReg
  else afterRead (canReadAll s [rs]) (scheduleLink linkReg (condTarget (decide (0 ≤ (s.reg rs).toInt)) imm s) s)

end Sys2Proof.Machine
end

