-- ==== Sys2Proof/Machine/Irq.lean ====
section
/-! DEFINITION. The interrupt controller (60_exceptions section 6): raising a line, acknowledging, the mask, its bus
handler, and the request the CPU samples. -/

namespace Sys2Proof.Machine

/-- `(I_STAT & I_MASK) != 0`, the controller's output (60_exceptions R370). -/
def irqLine (s : State) : Bool := s.iStat &&& s.iMask != 0

/-- `raise(line)`: the pending bit is set whatever I_MASK holds (60_exceptions R372). -/
def raiseLine (l : Line) (s : State) : State := { s with iStat := s.iStat ||| BitVec.twoPow 11 l.val }

/-- The line of the DMA engine (10_state R48, 65_dma R426). -/
def dmaLine : Line := 3

/-- Acknowledge: a write of `v` to I_STAT (60_exceptions R374). -/
def acknowledge (v : Word) (s : State) : State :=
  { s with
    iStat :=
      match s.cfg.ackPolarity with
      | .write1Clears => s.iStat &&& ~~~(v.setWidth 11)
      | .write0Clears => s.iStat &&& v.setWidth 11 }

/-- A write of `v` to I_MASK (60_exceptions R375). -/
def setIMask (v : Word) (s : State) : State := { s with iMask := v.setWidth 11 }

/-- IP as CAUSE reads it: IP[7:3] = 0, IP[2] live, IP[1:0] stored (60_exceptions R376, 10_state R38). -/
def pendingIP (s : State) : BitVec 8 := 0#5 ++ BitVec.ofBool (irqLine s) ++ s.cause.ip

/-- IrqRequest (60_exceptions R376). -/
def irqRequest (s : State) : Bool := srIEc s && pendingIP s &&& srIM s != 0

/-- CAUSE as MFC0 reads it (10_state R38, 45_cop_system R312). -/
def causeWord (s : State) : Word :=
  BitVec.ofBool s.cause.bd ++ 0#1 ++ s.cause.ce ++ 0#12 ++ pendingIP s ++ 0#1 ++ s.cause.excCode ++ 0#2

/-- What a core handler answers to a read: a value (zero-extended), an unmapped hole (20_memory R92), or a width it does
not take (20_memory R104). -/
inductive ReadReply where
  | value (v : Word)
  | hole
  | badWidth
  deriving DecidableEq, Repr

/-- What a core handler answers to a write: the new state, a hole, or a width it does not take. -/
inductive WriteReply where
  | done (s : State)
  | hole
  | badWidth
  deriving DecidableEq, Repr

/-- The register at an offset of the controller's window: I_STAT in the first word, I_MASK in the second (20_memory R101). -/
def irqRegister (off : Nat) (s : State) : Word :=
  if off < 4 then s.iStat.setWidth 32 else s.iMask.setWidth 32

/-- Reads of the controller (20_memory R101, R104). -/
def irqRead (off : Nat) (w : Width) (s : State) : ReadReply :=
  match w with
  | .b8 => .badWidth
  | .b16 => .value (if off % 4 = 0 then clip .b16 (irqRegister off s) else 0)
  | .b32 => .value (irqRegister off s)

/-- A 32-bit write of the controller (20_memory R101). -/
def irqStore (off : Nat) (v : Word) (s : State) : State :=
  if off < 4 then acknowledge v s else setIMask v s

/-- Writes of the controller (20_memory R101, R104): a 16-bit write at a register's offset is the 32-bit write of its
zero-extended value, one at offset + 2 is ignored. -/
def irqWrite (off : Nat) (w : Width) (v : Word) (s : State) : WriteReply :=
  match w with
  | .b8 => .badWidth
  | .b16 => .done (if off % 4 = 0 then irqStore off (clip .b16 v) s else s)
  | .b32 => .done (irqStore off v s)

end Sys2Proof.Machine
end

