-- ==== Sys2Proof/Machine/Cop.lean ====
section
/-! DEFINITION. Coprocessor and system instructions (45_cop_system). -/

namespace Sys2Proof.Machine

/-- Coprocessor z is usable (45_cop_system R310): COP0 in kernel mode or with CU0, the others with CUz in either mode. -/
def copUsable (z : BitVec 2) (s : State) : Bool := (z == 0 && !srKUc s) || srCU s z

/-- The usability check, before any other effect (45_cop_system R310). -/
def ifUsable (z : BitVec 2) (s : State) (run : Result) : Result :=
  if copUsable z s then run else enterException (.cpU z) s

/-- `Cop0Read(rd)` (45_cop_system R312, R317, R318; 10_state R44). -/
def cop0Read (rd : Reg) (s : State) : Except Refusal Word :=
  match rd.toNat with
  | 3 => .error .refuseDebug
  | 5 => .error .refuseDebug
  | 6 => .error .refuseDebug
  | 7 => .error .refuseDebug
  | 8 => .ok s.badVAddr
  | 9 => .error .refuseDebug
  | 11 => .error .refuseDebug
  | 12 => .ok s.sr
  | 13 => .ok (causeWord s)
  | 14 => .ok s.epc
  | 15 => .ok Layout.pridValue
  | _ => .error .refuseCop0Reg

/-- `Cop0Write(rd, v)` (45_cop_system R314, R317, R318; 10_state R37, R39, R44). -/
def cop0Write (rd : Reg) (v : Word) (s : State) : Except Refusal State :=
  match rd.toNat with
  | 3 => .ok { s with bpc := v }
  | 5 => .ok { s with bda := v }
  | 6 => .ok s
  | 7 => if v = 0 then .ok { s with dcic := 0 } else .error .refuseDebug
  | 8 => .ok s
  | 9 => .ok { s with bdam := v }
  | 11 => .ok { s with bpcm := v }
  | 12 => .ok { s with sr := v }
  | 13 => .ok { s with cause := { s.cause with ip := v.extractLsb' 8 2 } }
  | 14 => .ok s
  | 15 => .ok s
  | _ => .error .refuseCop0Reg

/-- R311: the value goes through the load slot. -/
def execMfc0 (rt rd : Reg) (s : State) : Result :=
  ifUsable 0 s
    (match cop0Read rd s with
      | .error r => .refused r
      | .ok v => .next (retire { ld := some ⟨rt, v⟩ } s))

/-- R313: the COP0 write takes effect at retire, for the next instruction and the next sampling. -/
def execMtc0 (rt rd : Reg) (s : State) : Result :=
  ifUsable 0 s
    (afterRead (canReadAll s [rt])
      (match cop0Write rd (s.reg rt) s with
        | .error r => .refused r
        | .ok s' => .next (retire {} s')))

/-- R316. -/
def execRfe (s : State) : Result := ifUsable 0 s (.next (retire {} (leaveException s)))

/-- A group whose every sub-form is refused when its coprocessor is usable (45_cop_system R322, R323). -/
def copGroup (z : BitVec 2) (s : State) : Result := ifUsable z s (.refused .refuseCopz)

/-- R322. -/
def execCop1 (_cofun : BitVec 26) (s : State) : Result := copGroup 1 s

/-- R322. -/
def execCop2 (_cofun : BitVec 26) (s : State) : Result := copGroup 2 s

/-- R322. -/
def execCop3 (_cofun : BitVec 26) (s : State) : Result := copGroup 3 s

/-- R323. -/
def execLwc0 (_rt _base : Reg) (_offset : BitVec 16) (s : State) : Result := copGroup 0 s

/-- R323. -/
def execLwc1 (_rt _base : Reg) (_offset : BitVec 16) (s : State) : Result := copGroup 1 s

/-- R323. -/
def execLwc2 (_rt _base : Reg) (_offset : BitVec 16) (s : State) : Result := copGroup 2 s

/-- R323. -/
def execLwc3 (_rt _base : Reg) (_offset : BitVec 16) (s : State) : Result := copGroup 3 s

/-- R323. -/
def execSwc0 (_rt _base : Reg) (_offset : BitVec 16) (s : State) : Result := copGroup 0 s

/-- R323. -/
def execSwc1 (_rt _base : Reg) (_offset : BitVec 16) (s : State) : Result := copGroup 1 s

/-- R323. -/
def execSwc2 (_rt _base : Reg) (_offset : BitVec 16) (s : State) : Result := copGroup 2 s

/-- R323. -/
def execSwc3 (_rt _base : Reg) (_offset : BitVec 16) (s : State) : Result := copGroup 3 s

/-- R324: the code field is ignored. -/
def execSyscall (_code : BitVec 20) (s : State) : Result := enterException .sys s

/-- R325: the code field is ignored. -/
def execBrk (_code : BitVec 20) (s : State) : Result := enterException .bp s

end Sys2Proof.Machine
end

