-- ==== Sys2Proof/Machine/Dma.lean ====
section
/-! DEFINITION. The DMA engine (65_dma): register access, which channels are serviceable, the arbiter, the units of the three
sync modes, the ordering-table clear, completion and transfer-level faults. -/

namespace Sys2Proof.Machine

def State.chan (s : State) (n : Chan) : Channel := s.dma.get n

def setChan (n : Chan) (c : Channel) (s : State) : State := { s with dma := s.dma.set n.val c n.isLt }

/-! Fields (10_state R50 to R55). -/

def chcrDir (c : Word) : Bool := c.getLsbD 0
def chcrStep (c : Word) : Bool := c.getLsbD 1
def chcrSync (c : Word) : BitVec 2 := c.extractLsb' 9 2
def chcrStart (c : Word) : Bool := c.getLsbD 24
def chcrTrigger (c : Word) : Bool := c.getLsbD 28

def startBit : Word := 0x01000000#32
def triggerBit : Word := 0x10000000#32

/-- EN[n] of DPCR (10_state R54). -/
def dpcrEnable (dpcr : Word) (n : Chan) : Bool := dpcr.getLsbD (4 * n.val + 3)

/-- PRI[n] of DPCR (10_state R54). -/
def dpcrPriority (dpcr : Word) (n : Chan) : BitVec 3 := dpcr.extractLsb' (4 * n.val) 3

/-- MFLAG (10_state R55). -/
def Dicr.mflag (d : Dicr) : Bool := d.force || (d.mie && d.ie &&& d.flag != 0)

/-- DICR as read (10_state R55, 65_dma R408). -/
def Dicr.word (d : Dicr) : Word :=
  BitVec.ofBool d.mflag ++ d.flag ++ BitVec.ofBool d.mie ++ d.ie ++ BitVec.ofBool d.force ++ 0#9 ++ d.unk

/-! Completion and faults (65_dma section 5). -/

/-- `DmaAddrOK(a)` (65_dma R428). -/
def dmaAddrOk (a : Int) : Bool := a % 4 == 0 && decide (0 ≤ a) && decide (a < Layout.ramSize)

/-- The channel a transfer fault leaves: START, TRIGGER and active cleared, the diagnostic added (65_dma R430). -/
def Channel.failed (reason : DmaFault) (c : Channel) : Channel :=
  let chcr := c.chcr &&& ~~~(startBit ||| triggerBit)
  { c with chcr := chcr, active := false, diag := c.diag ++ [⟨reason, c.madr, chcr⟩] }

/-- `TransferFault(n, reason)` (65_dma R430). -/
def transferFault (n : Chan) (reason : DmaFault) (s : State) : State :=
  setChan n ((s.chan n).failed reason) s

/-- The channel a completion leaves (65_dma R426). -/
def Channel.finished (c : Channel) : Channel := { c with chcr := c.chcr &&& ~~~startBit, active := false }

/-- `DICR.FLAG[n] <- 1` (65_dma R426). -/
def Dicr.setFlag (d : Dicr) (n : Chan) : Dicr := { d with flag := d.flag ||| BitVec.twoPow 7 n.val }

/-- `Complete(n)` (65_dma R426): the flag is set at every completion, the line is raised when IE[n] and MIE are set. -/
def complete (n : Chan) (s : State) : State :=
  let s' := { setChan n (s.chan n).finished s with dicr := s.dicr.setFlag n }
  if s.dicr.ie.getLsbD n.val && s.dicr.mie then raiseLine dmaLine s' else s'

/-! Register access (65_dma section 2). -/

/-- The registers of the DMA window (20_memory R92). -/
inductive DmaReg where
  | madr (n : Chan)
  | bcr (n : Chan)
  | chcr (n : Chan)
  | dpcr
  | dicr
  deriving DecidableEq, Repr

/-- The register containing an offset of the window, `none` in a hole (20_memory R92). -/
def dmaRegAt (off : Nat) : Option DmaReg :=
  if h : off < 0x70 then
    let n : Chan := ⟨off / 16, by omega⟩
    match off % 16 / 4 with
    | 0 => some (.madr n)
    | 1 => some (.bcr n)
    | 2 => some (.chcr n)
    | _ => none
  else
    match off / 4 with
    | 28 => some .dpcr
    | 29 => some .dicr
    | _ => none

/-- What a register reads as (65_dma R408). -/
def dmaRegWord (r : DmaReg) (s : State) : Word :=
  match r with
  | .madr n => (s.chan n).madr.setWidth 32
  | .bcr n => (s.chan n).bcr
  | .chcr n => (s.chan n).chcr
  | .dpcr => s.dpcr
  | .dicr => s.dicr.word

/-- `Begin(n)` after `active[n] <- 1` (65_dma R410, R434). -/
def Channel.begun (c : Channel) : Channel :=
  { c with active := true, wkLeft := (c.bcr.setWidth 16).setWidth 17 }

/-- CHCR[n] after a write of `v` (65_dma R410). -/
def chcrValue (n : Chan) (v : Word) : Word := v &&& Layout.chcrMask n ||| Layout.chcrFixed n

/-- A write of `v` to CHCR[n] (65_dma R410): a change of direction or mode of an active channel is a transfer fault, clearing
START stops it, setting START of an idle one begins an active period. -/
def writeChcr (n : Chan) (v : Word) (s : State) : State :=
  let old := s.chan n
  let c := { old with chcr := chcrValue n v }
  if old.active && (chcrDir c.chcr != chcrDir old.chcr || chcrSync c.chcr != chcrSync old.chcr) then
    transferFault n .modeChange (setChan n c s)
  else if old.active && !chcrStart c.chcr then setChan n { c with active := false } s
  else if !old.active && !chcrStart old.chcr && chcrStart c.chcr then setChan n c.begun s
  else setChan n c s

/-- DICR after a write of `v` (65_dma R412): FLAG bits are cleared by writing 1. -/
def dicrValue (d : Dicr) (v : Word) : Dicr where
  unk := v.extractLsb' 0 6
  force := v.getLsbD 15
  ie := v.extractLsb' 16 7
  mie := v.getLsbD 23
  flag := d.flag &&& ~~~(v.extractLsb' 24 7)

/-- A write of `v` to DICR (65_dma R412): the line is raised when MFLAG rises. -/
def writeDicr (v : Word) (s : State) : State :=
  let s' := { s with dicr := dicrValue s.dicr v }
  if !s.dicr.mflag && s'.dicr.mflag then raiseLine dmaLine s' else s'

/-- A 32-bit write of a DMA register (65_dma R409 to R412). -/
def dmaRegStore (r : DmaReg) (v : Word) (s : State) : State :=
  match r with
  | .madr n => setChan n { s.chan n with madr := v.setWidth 24 } s
  | .bcr n => setChan n { s.chan n with bcr := v } s
  | .chcr n => writeChcr n v s
  | .dpcr => { s with dpcr := v }
  | .dicr => writeDicr v s

/-- Reads of the DMA window (20_memory R92, R104). -/
def dmaRead (off : Nat) (w : Width) (s : State) : ReadReply :=
  match dmaRegAt off with
  | none => .hole
  | some r => if w = .b32 then .value (dmaRegWord r s) else .badWidth

/-- Writes of the DMA window (20_memory R92, R104). -/
def dmaWrite (off : Nat) (w : Width) (v : Word) (s : State) : WriteReply :=
  match dmaRegAt off with
  | none => .hole
  | some r => if w = .b32 then .done (dmaRegStore r v s) else .badWidth

/-! Scheduling (65_dma section 3). -/

/-- Channel n is serviceable (65_dma R416). -/
def serviceable (s : State) (n : Chan) : Bool :=
  let c := s.chan n
  c.active && chcrStart c.chcr && dpcrEnable s.dpcr n &&
    match (chcrSync c.chcr).toNat with
    | 0 => chcrTrigger c.chcr
    | 1 => s.dmaReady.get n || n == 6
    | 2 => s.dmaReady.get n
    | _ => true

/-- The serviceable channels, in rising order. -/
def serviceableChans (s : State) : List Chan := [0, 1, 2, 3, 4, 5, 6].filter (serviceable s)

/-- The PlayStation-1 order (65_dma R419): the smaller PRI, and among equals the higher channel number. -/
def firstByPriority (dpcr : Word) (n m : Chan) : Chan :=
  let p := (dpcrPriority dpcr n).toNat
  let q := (dpcrPriority dpcr m).toNat
  if p < q || (p == q && m.val < n.val) then n else m

/-- DMA_ARBITER (65_dma R419): a member of the set of serviceable channels. A set of one leaves no choice. -/
def arbitrate (a : Arbiter) (dpcr : Word) (cs : List Chan) : Option Chan :=
  match cs with
  | [] => none
  | [n] => some n
  | n :: m :: rest =>
    match a with
    | .ps1 => some ((m :: rest).foldl (firstByPriority dpcr) n)
    | .other k =>
      some ((n :: m :: rest).getD (Config.arbiterChoice k dpcr (n :: m :: rest) % (n :: m :: rest).length) n)

/-- The channel the next DMA step serves (65_dma R418). -/
def nextChan (s : State) : Option Chan := arbitrate s.cfg.arbiter s.dpcr (serviceableChans s)

/-! Moving words (65_dma R402, R439; 20_memory R98). -/

/-- LATENCY(RAM) added for one DMA access (65_dma R439). -/
def dmaTick (s : State) : State := { s with cycles := s.cycles + Config.latency .ram }

/-- `DmaRamWrite(a, v)`. -/
def dmaRamWrite (a : Nat) (v : Word) (s : State) : State :=
  dmaTick { s with mem := writeMem s.mem a .b32 v }

/-- One word between device n and RAM address `a`: `DmaRamWrite(a, dma_read_word(n))`, whose word is a free value, or
`dma_write_word(n, DmaRamRead(a))`. -/
def moveWord (n : Chan) (fromRam : Bool) (a : Nat) (s : State) : State :=
  if fromRam then dmaTick (emit (.dmaWord n (readMem s.mem a .b32)) s)
  else dmaRamWrite a (freeValue s) (noteDraw s)

/-- `count` words at a0 + step * i, from `i` on. -/
def moveBlock (n : Chan) (fromRam : Bool) (a0 step : Int) (count i : Nat) (s : State) : State :=
  match count with
  | 0 => s
  | k + 1 => moveBlock n fromRam a0 step k (i + 1) (moveWord n fromRam (a0 + step * i).toNat s)

/-- The bytes a word's address moves by (10_state R52). -/
def stepOf (chcr : Word) : Int := if chcrStep chcr then -4 else 4

/-- The word count of a manual transfer: BCR[15:0], 0 meaning 0x10000 (65_dma R420). -/
def manualCount (bcr : Word) : Nat :=
  if (bcr.setWidth 16).toNat = 0 then 0x10000 else (bcr.setWidth 16).toNat

/-- Every address a0 + step * i, i < count, passes `DmaAddrOK` (65_dma R420). -/
def blockOk (a0 step : Int) (count : Nat) : Bool :=
  match count with
  | 0 => true
  | k + 1 => dmaAddrOk (a0 + step * k) && blockOk a0 step k

/-- `CHCR[n].TRIGGER <- 0` (65_dma R420). -/
def clearTrigger (n : Chan) (s : State) : State :=
  setChan n { s.chan n with chcr := (s.chan n).chcr &&& ~~~triggerBit } s

/-- The unit of a manual transfer of channels 0 to 5 (65_dma R420). -/
def manualUnit (n : Chan) (s : State) : State :=
  let c := s.chan n
  let s0 := clearTrigger n s
  let count := manualCount c.bcr
  if blockOk c.madr.toNat (stepOf c.chcr) count then
    complete n (moveBlock n (chcrDir c.chcr) c.madr.toNat (stepOf c.chcr) count 0 s0)
  else transferFault n .address s0

/-- The word the ordering-table clear writes at `a` (65_dma R436). -/
def otcWord (last : Bool) (a : Word) : Word := if last then 0x00FFFFFF#32 else (a - 4) &&& 0x001FFFFF#32

/-- The words of the ordering-table clear, downwards from a0 - 4 * i (65_dma R436). -/
def otcBlock (a0 : Int) (count i : Nat) (s : State) : State :=
  match count with
  | 0 => s
  | k + 1 =>
    let a := (a0 - 4 * i).toNat
    otcBlock a0 k (i + 1) (dmaRamWrite a (otcWord (k == 0) (BitVec.ofNat 32 a)) s)

/-- The unit of channel 6 (65_dma R436). -/
def otcUnit (s : State) : State :=
  let c := s.chan 6
  let s0 := clearTrigger 6 s
  let count := manualCount c.bcr
  if blockOk c.madr.toNat (-4) count then complete 6 (otcBlock c.madr.toNat count 0 s0)
  else transferFault 6 .address s0

/-- MADR after one word of a request transfer (65_dma R422). -/
def nextMadr (c : Channel) : BitVec 24 := if chcrStep c.chcr then c.madr - 4 else c.madr + 4

/-- BCR[31:16]. -/
def blocksLeft (bcr : Word) : BitVec 16 := bcr.extractLsb' 16 16

/-- `BCR[31:16] <- BCR[31:16] - 1` (65_dma R422). -/
def oneBlockLess (bcr : Word) : Word := (blocksLeft bcr - 1) ++ bcr.setWidth 16

/-- The registers of a request channel after one word (65_dma R422): the address moves, and at the end of a block one block
fewer is left. `wk_left` wraps at its 17 bits (log 23). -/
def Channel.wordMoved (c : Channel) : Channel :=
  if c.wkLeft - 1 = 0 then
    { c with
      madr := nextMadr c
      bcr := oneBlockLess c.bcr
      wkLeft := if blocksLeft (oneBlockLess c.bcr) = 0 then 0 else (c.bcr.setWidth 16).setWidth 17 }
  else { c with madr := nextMadr c, wkLeft := c.wkLeft - 1 }

/-- The unit of a request-mode transfer: one word (65_dma R422). -/
def requestUnit (n : Chan) (s : State) : State :=
  let c := s.chan n
  if c.bcr.setWidth 16 = 0#16 ∨ blocksLeft c.bcr = 0 then transferFault n .zeroBlock s
  else if !dmaAddrOk c.madr.toNat then transferFault n .address s
  else
    let s1 := setChan n c.wordMoved (moveWord n (chcrDir c.chcr) c.madr.toNat s)
    if c.wkLeft - 1 = 0 ∧ blocksLeft c.wordMoved.bcr = 0 then complete n s1 else s1

/-- Word count of a linked-list header (65_dma R425). -/
def headerCount (hdr : Word) : Nat := (hdr.extractLsb' 24 8).toNat

/-- Next pointer of a linked-list header (65_dma R425). -/
def headerNext (hdr : Word) : BitVec 24 := hdr.setWidth 24

/-- `MADR[n] <- a`. -/
def setMadr (n : Chan) (a : BitVec 24) (s : State) : State := setChan n { s.chan n with madr := a } s

/-- The unit of a linked-list transfer: one node (65_dma R424). -/
def linkedUnit (n : Chan) (s : State) : State :=
  let c := s.chan n
  let h := c.madr.toNat
  if !chcrDir c.chcr then transferFault n .linkDirection s
  else if !dmaAddrOk h then transferFault n .linkPointer s
  else
    let hdr := readMem s.mem h .b32
    let s1 := dmaTick s
    let cnt := headerCount hdr
    if decide (cnt > 0) && !dmaAddrOk (h + 4 * cnt) then transferFault n .address s1
    else
      let s2 := moveBlock n true h 4 cnt 1 s1
      if headerNext hdr = 0xFFFFFF#24 then complete n (setMadr n 0xFFFFFF#24 s2)
      else if !dmaAddrOk (headerNext hdr).toNat then transferFault n .linkPointer s2
      else setMadr n (headerNext hdr) s2

/-- One unit of channel n, by its sync mode (65_dma R418, R431, R436). -/
def dmaUnit (n : Chan) (s : State) : State :=
  match (chcrSync (s.chan n).chcr).toNat with
  | 0 => if n = 6 then otcUnit s else manualUnit n s
  | 1 => requestUnit n s
  | 2 => linkedUnit n s
  | _ => transferFault n .badSync s

/-- A DMA step (65_dma R418): one unit of the channel the arbiter chooses. With no channel serviceable it is not enabled and
nothing happens. -/
def dmaStep (s : State) : State :=
  match nextChan s with
  | none => s
  | some n => dmaUnit n s

end Sys2Proof.Machine
end

