-- ==== Sys2Proof/Machine/Bus.lean ====
section
/-! DEFINITION. The system bus (20_memory): segments and translation, the bus map and its configuration check, the
unmapped policy, the handlers, and the CPU's access primitives MemRead and MemWrite. -/

namespace Sys2Proof.Machine

/-- The address is not a multiple of the width (20_memory R86). -/
def misaligned (ea : Word) (w : Width) : Bool := ea.toNat % widthBytes w != 0

/-- The segment of a virtual address, by bits 31:29 (20_memory R80). -/
def segmentOf (vaddr : Word) : Segment :=
  match (vaddr.extractLsb' 29 3).toNat with
  | 4 => .kseg0
  | 5 => .kseg1
  | 6 => .kseg2
  | 7 => .kseg2
  | _ => .kuseg

/-- The region mask of a segment (20_memory R80). -/
def regionMask (seg : Segment) : Word :=
  match seg with
  | .kuseg => 0xFFFFFFFF#32
  | .kseg0 => 0x7FFFFFFF#32
  | .kseg1 => 0x1FFFFFFF#32
  | .kseg2 => 0xFFFFFFFF#32

/-- `Translate(vaddr)` (20_memory R81). -/
def physAddr (vaddr : Word) : Word := vaddr &&& regionMask (segmentOf vaddr)

/-- The bus map: the core entries, then the external windows (20_memory R89, R90, R94). -/
def busMap (cfg : Params) : List BusEntry :=
  Layout.coreMap ++ cfg.external.map (fun w => ⟨w.base, w.size, .external w, w.segs⟩)

/-- An entry holds a physical address and is reachable through the segment (20_memory R95). -/
def entryCovers (e : BusEntry) (paddr : Nat) (seg : Segment) : Bool :=
  decide (e.base ≤ paddr) && decide (paddr < e.base + e.size) && e.segs.contains seg

/-- `Lookup(paddr, seg)` (20_memory R95). -/
def lookup (cfg : Params) (paddr : Nat) (seg : Segment) : Option BusEntry :=
  (busMap cfg).find? (fun e => entryCovers e paddr seg)

/-! The configuration check (20_memory R93). -/

/-- Two ranges lie apart: one ends where the other begins, or before. An empty range strictly inside another is not apart from it,
though they share no address: the spec says nothing of empty ranges (DESIGN CHOICE, safe, log 38). -/
def entriesDisjoint (e f : BusEntry) : Bool :=
  decide (e.base + e.size ≤ f.base) || decide (f.base + f.size ≤ e.base)

/-- No entry overlaps a later one. -/
def noOverlap (es : List BusEntry) : Bool :=
  match es with
  | [] => true
  | e :: rest => rest.all (entriesDisjoint e) && noOverlap rest

/-- Checks (a) and (b) of 20_memory R93: no overlap, and every base and size a multiple of 4. -/
def busMapOk (cfg : Params) : Bool :=
  noOverlap (busMap cfg) && (busMap cfg).all (fun e => e.base % 4 == 0 && e.size % 4 == 0)

/-- Check (c) of 20_memory R93 on one channel: the read-0 bits of CHCR are 0, and the channel is active only where START = 1. The
other read-0 bits and the range of `exc_depth` hold by the types of State. Of CHCR[6] (10_state R53) the check asks two things more
by the model's choice, since R93 lists the read-0 bits only: bit 1, which always reads 1, must be 1; and bits 8, 18:16, 22:20 and
29, which no write can set but which R53 does not say read 0, must be 0 (DESIGN CHOICE, safe, log 27). -/
def channelOk (s : State) (n : Chan) : Bool :=
  chcrValue n (s.chan n).chcr == (s.chan n).chcr && (!(s.chan n).active || chcrStart (s.chan n).chcr)

/-- The configuration check (20_memory R93). -/
def configOk (s : State) : Bool :=
  busMapOk s.cfg && [0, 1, 2, 3, 4, 5, 6].all (channelOk s)

/-! Accesses (20_memory section 4). -/

/-- What a bus access gives: a value with the new state, or a model fault. -/
abbrev Access (α : Type) := Except Fault (α × State)

/-- The cycles one access to a handler adds (20_memory R90, R96). -/
def latencyOf (h : Handler) : Nat :=
  match h with
  | .external w => w.latency
  | h => Config.latency h

/-- One handler call of the CPU: its cycles (20_memory R96) and the count of 40_cpu_step R162. -/
def noteCall (h : Handler) (s : State) : State :=
  { s with cycles := s.cycles + latencyOf h, busCalls := s.busCalls + 1 }

/-- `Unmapped(paddr, n, read)` (20_memory R99, R100). -/
def unmappedRead (paddr : Word) (w : Width) (s : State) : Access Word :=
  match s.cfg.busPolicy with
  | .lenient => .ok (clip w s.cfg.openBusValue, s)
  | .strict => .error (.busFault paddr (widthBytes w) .read)

/-- `Unmapped(paddr, n, write)` (20_memory R99, R100). -/
def unmappedWrite (paddr : Word) (w : Width) (s : State) : Except Fault State :=
  match s.cfg.busPolicy with
  | .lenient => .ok s
  | .strict => .error (.busFault paddr (widthBytes w) .write)

/-- The memory cell of an offset of a handler that is memory: RAM mirrored (20_memory R102), SPAD and BIOS at their physical
addresses (R103). -/
def cellOf (h : Handler) (off : Nat) : Option Nat :=
  match h with
  | .ram => some (off % Layout.ramSize)
  | .spad => some (Layout.spadBase + off)
  | .bios => some (Layout.biosBase + off)
  | _ => none

/-- Reads of the core handlers (20_memory R91, R101 to R104). -/
def coreRead (h : Handler) (off : Nat) (w : Width) (s : State) : ReadReply :=
  match h with
  | .ram => .value (readMem s.mem (off % Layout.ramSize) w)
  | .spad => .value (readMem s.mem (Layout.spadBase + off) w)
  | .bios => .value (readMem s.mem (Layout.biosBase + off) w)
  | .irq => irqRead off w s
  | .dma => dmaRead off w s
  | .cacheCtl => if w = .b32 then .value s.cacheCtl else .badWidth
  | .external _ => .hole

/-- Writes of the core handlers (20_memory R91, R101 to R104): a write to the BIOS is ignored. -/
def coreWrite (h : Handler) (off : Nat) (w : Width) (v : Word) (s : State) : WriteReply :=
  match h with
  | .ram => .done { s with mem := writeMem s.mem (off % Layout.ramSize) w v }
  | .spad => .done { s with mem := writeMem s.mem (Layout.spadBase + off) w v }
  | .bios => .done s
  | .irq => irqWrite off w v s
  | .dma => dmaWrite off w v s
  | .cacheCtl => if w = .b32 then .done { s with cacheCtl := v } else .badWidth
  | .external _ => .hole

/-- A read of an external window: an event to the device, and a free value of the width (20_memory R94). -/
def externalRead (win : Window) (off : Nat) (w : Width) (s : State) : Word × State :=
  (clip w (freeValue s), noteCall (.external win) (emit (.busRead win.id off w) (noteDraw s)))

/-- A write of an external window: delivered to the device, changing nothing in this block (20_memory R94). -/
def externalWrite (win : Window) (off : Nat) (w : Width) (v : Word) (s : State) : State :=
  noteCall (.external win) (emit (.busWrite win.id off w (clip w v)) s)

/-- A read through an entry of the map. -/
def entryRead (e : BusEntry) (paddr : Word) (w : Width) (s : State) : Access Word :=
  match e.handler with
  | .external win => .ok (externalRead win (paddr.toNat - e.base) w s)
  | h =>
    match coreRead h (paddr.toNat - e.base) w s with
    | .value v => .ok (v, noteCall h s)
    | .hole => unmappedRead paddr w s
    | .badWidth => .error .mmioWidth

/-- A write through an entry of the map. -/
def entryWrite (e : BusEntry) (paddr : Word) (w : Width) (v : Word) (s : State) : Except Fault State :=
  match e.handler with
  | .external win => .ok (externalWrite win (paddr.toNat - e.base) w v s)
  | h =>
    match coreWrite h (paddr.toNat - e.base) w v s with
    | .done s' => .ok (noteCall h s')
    | .hole => unmappedWrite paddr w s
    | .badWidth => .error .mmioWidth

/-- `MemRead(vaddr, n)` (20_memory R96), zero-extended to 32 bits. The caller has checked alignment and the mode. -/
def memRead (vaddr : Word) (w : Width) (s : State) : Access Word :=
  match lookup s.cfg (physAddr vaddr).toNat (segmentOf vaddr) with
  | none => unmappedRead (physAddr vaddr) w s
  | some e => entryRead e (physAddr vaddr) w s

/-- `MemWrite(vaddr, n, v)` (20_memory R97). The caller has checked alignment, the mode and SR.IsC. -/
def memWrite (vaddr : Word) (w : Width) (v : Word) (s : State) : Except Fault State :=
  match lookup s.cfg (physAddr vaddr).toNat (segmentOf vaddr) with
  | none => unmappedWrite (physAddr vaddr) w s
  | some e => entryWrite e (physAddr vaddr) w v s

/-- The handler and the memory cell a virtual address reaches, if it reaches RAM, SPAD or BIOS. -/
def memoryAt (cfg : Params) (vaddr : Word) : Option (Handler × Nat) :=
  match lookup cfg (physAddr vaddr).toNat (segmentOf vaddr) with
  | none => none
  | some e => (cellOf e.handler ((physAddr vaddr).toNat - e.base)).map (e.handler, ·)

end Sys2Proof.Machine
end

