-- ==== Sys2Proof/Machine/LoadStore.lean ====
section
/-! DEFINITION. Loads and stores (44_load_store): the address checks, cache isolation, the bus access, and the result through
the load slot. -/

namespace Sys2Proof.Machine

/-- CheckAddr fails: misaligned, or an address with bit 31 set in user mode (44_load_store R281). -/
def addrFault (ea : Word) (w : Width) (s : State) : Bool := misaligned ea w || (srKUc s && ea.getLsbD 31)

/-- The value of width `w` in the low bits of `v`, sign-extended. -/
def signExt (w : Width) (v : Word) : Word :=
  match w with
  | .b8 => (v.setWidth 8).signExtend 32
  | .b16 => (v.setWidth 16).signExtend 32
  | .b32 => v

/-- A load, after its base register has been read: checks for width `chk` at `ea`, isolation, one read of width `w` at `a`, the read
of the register it merges into (`merged`: it can be read), and `E.ld <- (rt, f value)` (44_load_store R280 to R282, R289). -/
def loadVia (chk w : Width) (ea a : Word) (rt : Reg) (merged : Bool) (f : Word → Word) (s : State) : Result :=
  if addrFault ea chk s then enterException (.adEL ea) s
  else if srIsC s then .refused .refuseIsolatedLoad
  else
    match memRead a w s with
    | .error e => .fault e
    | .ok (v, s') => afterRead merged (.next (retire { ld := some ⟨rt, f v⟩ } s'))

/-- R284. -/
def execLb (rt base : Reg) (offset : BitVec 16) (s : State) : Result :=
  let ea := effAddr base offset s
  afterRead (canReadAll s [base]) (loadVia .b8 .b8 ea ea rt true (signExt .b8) s)

/-- R285. -/
def execLbu (rt base : Reg) (offset : BitVec 16) (s : State) : Result :=
  let ea := effAddr base offset s
  afterRead (canReadAll s [base]) (loadVia .b8 .b8 ea ea rt true (clip .b8) s)

/-- R286. -/
def execLh (rt base : Reg) (offset : BitVec 16) (s : State) : Result :=
  let ea := effAddr base offset s
  afterRead (canReadAll s [base]) (loadVia .b16 .b16 ea ea rt true (signExt .b16) s)

/-- R287. -/
def execLhu (rt base : Reg) (offset : BitVec 16) (s : State) : Result :=
  let ea := effAddr base offset s
  afterRead (canReadAll s [base]) (loadVia .b16 .b16 ea ea rt true (clip .b16) s)

/-- R288. -/
def execLw (rt base : Reg) (offset : BitVec 16) (s : State) : Result :=
  let ea := effAddr base offset s
  afterRead (canReadAll s [base]) (loadVia .b32 .b32 ea ea rt true id s)

/-- R289, R290, R292. -/
def execLwl (rt base : Reg) (offset : BitVec 16) (s : State) : Result :=
  let ea := effAddr base offset s
  afterRead (canReadAll s [base])
    (loadVia .b8 .b32 ea (alignedWord ea) rt (canMerge rt s) (lwlMerge (byteInWord ea) (pendingValue rt s)) s)

/-- R291, R292. -/
def execLwr (rt base : Reg) (offset : BitVec 16) (s : State) : Result :=
  let ea := effAddr base offset s
  afterRead (canReadAll s [base])
    (loadVia .b8 .b32 ea (alignedWord ea) rt (canMerge rt s) (lwrMerge (byteInWord ea) (pendingValue rt s)) s)

/-- A store, after its base register has been read: checks for width `chk` at `ea`, then, unless the cache is isolated, the read of
x[rt] and the bus writes `put` (44_load_store R281, R282, R293). -/
def storeVia (chk : Width) (ea : Word) (rt : Reg) (put : State → Except Fault State) (s : State) : Result :=
  if addrFault ea chk s then enterException (.adES ea) s
  else if srIsC s then .next (retire {} s)
  else
    afterRead (canReadAll s [rt])
      (match put s with
        | .error e => .fault e
        | .ok s' => .next (retire {} s'))

/-- R293. -/
def execSb (rt base : Reg) (offset : BitVec 16) (s : State) : Result :=
  let ea := effAddr base offset s
  afterRead (canReadAll s [base]) (storeVia .b8 ea rt (memWrite ea .b8 (clip .b8 (s.reg rt))) s)

/-- R294. -/
def execSh (rt base : Reg) (offset : BitVec 16) (s : State) : Result :=
  let ea := effAddr base offset s
  afterRead (canReadAll s [base]) (storeVia .b16 ea rt (memWrite ea .b16 (clip .b16 (s.reg rt))) s)

/-- R295. -/
def execSw (rt base : Reg) (offset : BitVec 16) (s : State) : Result :=
  let ea := effAddr base offset s
  afterRead (canReadAll s [base]) (storeVia .b32 ea rt (memWrite ea .b32 (s.reg rt)) s)

/-- One byte write for each byte of the list, in its order. -/
def writeEach (a : Word) (bs : List (Nat × Byte)) (s : State) : Except Fault State :=
  match bs with
  | [] => .ok s
  | (j, b) :: rest =>
    match memWrite (a + BitVec.ofNat 32 j) .b8 (b.setWidth 32) s with
    | .error e => .error e
    | .ok s' => writeEach a rest s'

/-- `StoreBytes(a, bytes)` (44_load_store R299): one word write when all four bytes of `r` are written, otherwise byte writes in
ascending order. -/
def storeBytes (a : Word) (bs : List (Nat × Byte)) (r : Word) (s : State) : Except Fault State :=
  if bs.length = 4 then memWrite a .b32 r s else writeEach a bs s

/-- R296, R297, R299. -/
def execSwl (rt base : Reg) (offset : BitVec 16) (s : State) : Result :=
  let ea := effAddr base offset s
  afterRead (canReadAll s [base])
    (storeVia .b8 ea rt (storeBytes (alignedWord ea) (swlBytes (byteInWord ea) (s.reg rt)) (s.reg rt)) s)

/-- R298, R299. -/
def execSwr (rt base : Reg) (offset : BitVec 16) (s : State) : Result :=
  let ea := effAddr base offset s
  afterRead (canReadAll s [base])
    (storeVia .b8 ea rt (storeBytes (alignedWord ea) (swrBytes (byteInWord ea) (s.reg rt)) (s.reg rt)) s)

end Sys2Proof.Machine
end

