-- ==== Sys2Proof/Machine/MulDiv.lean ====
section
/-! DEFINITION. Multiply, divide and the hi and lo registers (42_muldiv). The result is there within the instruction's own
step: the chip's wait is an interlock (42_muldiv R230). None of them raises an exception. -/

namespace Sys2Proof.Machine

/-- Retire with a write of hi and lo. -/
def retireHiLo (hi lo : Word) (s : State) : Result := .next (retire { hi := some hi, lo := some lo } s)

/-- The HiLoHazard check (42_muldiv R244): one of the two preceding retired instructions was MFHI or MFLO. -/
def hiLoHazard (s : State) : Bool := decide (0 < s.hiloAge.val) && s.cfg.hiloHazard == .fault

/-- An instruction that checks HiLoHazard first. -/
def checkHiLo (s : State) (run : Result) : Result := if hiLoHazard s then .fault .hiLoHazard else run

/-- The high word of an exact 64-bit product. -/
def prodHi (p : Int) : Word := (BitVec.ofInt 64 p).extractLsb' 32 32

/-- The low word of an exact 64-bit product. -/
def prodLo (p : Int) : Word := (BitVec.ofInt 64 p).extractLsb' 0 32

/-- The default DIV_CORNER table (42_muldiv R241): (hi, lo). -/
def chipCorner (signed : Bool) (n d : Word) : Word × Word :=
  if d = 0 then (n, if signed && decide (n.toInt < 0) then 1 else 0xFFFFFFFF#32)
  else (0, 0x80000000#32)

/-- DIV_CORNER (42_muldiv R241). -/
def divCorner (c : DivCorner) (signed : Bool) (n d : Word) : Word × Word :=
  match c with
  | .chipTable => chipCorner signed n d
  | .other k => Config.divCornerOther k signed n d

/-- The operands of a corner of DIV (42_muldiv R234). -/
def divIsCorner (n d : Word) : Bool := d == 0 || (n == 0x80000000#32 && d == 0xFFFFFFFF#32)

/-- (hi, lo) of DIV (42_muldiv R231, R234): the quotient truncated toward zero, the remainder with the dividend's sign. -/
def divSigned (c : DivCorner) (n d : Word) : Word × Word :=
  if divIsCorner n d then divCorner c true n d
  else (BitVec.ofInt 32 (n.toInt - d.toInt * n.toInt.tdiv d.toInt), BitVec.ofInt 32 (n.toInt.tdiv d.toInt))

/-- (hi, lo) of DIVU (42_muldiv R235). -/
def divUnsigned (c : DivCorner) (n d : Word) : Word × Word :=
  if d = 0 then divCorner c false n d
  else (BitVec.ofNat 32 (n.toNat % d.toNat), BitVec.ofNat 32 (n.toNat / d.toNat))

/-- R232. -/
def execMult (rs rt : Reg) (s : State) : Result :=
  let p := (s.reg rs).toInt * (s.reg rt).toInt
  checkHiLo s (afterRead (canReadAll s [rs, rt]) (retireHiLo (prodHi p) (prodLo p) s))

/-- R233. -/
def execMultu (rs rt : Reg) (s : State) : Result :=
  let p : Int := (s.reg rs).toNat * (s.reg rt).toNat
  checkHiLo s (afterRead (canReadAll s [rs, rt]) (retireHiLo (prodHi p) (prodLo p) s))

/-- R234. -/
def execDiv (rs rt : Reg) (s : State) : Result :=
  let r := divSigned s.cfg.divCorner (s.reg rs) (s.reg rt)
  checkHiLo s (afterRead (canReadAll s [rs, rt]) (retireHiLo r.1 r.2 s))

/-- R235. -/
def execDivu (rs rt : Reg) (s : State) : Result :=
  let r := divUnsigned s.cfg.divCorner (s.reg rs) (s.reg rt)
  checkHiLo s (afterRead (canReadAll s [rs, rt]) (retireHiLo r.1 r.2 s))

/-- R236. -/
def execMfhi (rd : Reg) (s : State) : Result :=
  afterRead (canReadHi s) (.next (retire { wr := some ⟨rd, s.hi⟩, readsHiLo := true } s))

/-- R237. -/
def execMflo (rd : Reg) (s : State) : Result :=
  afterRead (canReadLo s) (.next (retire { wr := some ⟨rd, s.lo⟩, readsHiLo := true } s))

/-- R238. -/
def execMthi (rs : Reg) (s : State) : Result :=
  checkHiLo s (afterRead (canReadAll s [rs]) (.next (retire { hi := some (s.reg rs) } s)))

/-- R239. -/
def execMtlo (rs : Reg) (s : State) : Result :=
  checkHiLo s (afterRead (canReadAll s [rs]) (.next (retire { lo := some (s.reg rs) } s)))

end Sys2Proof.Machine
end

