-- ==== Sys2Proof/Machine/Cpu.lean ====
section
/-! DEFINITION. The CPU step (40_cpu_step R152 to R166): interrupt sampling, the fetch checks, fetch, decode, and the
instruction's meaning, which retires it or takes its exception. -/

namespace Sys2Proof.Machine

/-- The pc may not be fetched: misaligned, or in user mode with bit 31 set (40_cpu_step R153, 20_memory R82). -/
def fetchFault (s : State) : Bool := misaligned s.pc .b32 || (srKUc s && s.pc.getLsbD 31)

/-- What a decoded word does (40_cpu_step R154, R160, R166): RI, a decode refusal (for a COP0 word after the usability check,
30_encoding R130), NestedBranch, or the instruction's meaning. -/
def runDecoded (d : Decoded) (s : State) : Result :=
  match d with
  | .reserved => enterException .ri s
  | .otherRegimm => .refused .refuseRegimm
  | .otherCop0 => ifUsable 0 s (.refused .refuseCop0Op)
  | .instr i => if s.br.isSome && isBranch i then .fault .nestedBranch else exec i s

/-- A CPU step begins: no handler called yet (40_cpu_step R162), and DMA units are owed after it: under the eager schedule the
catch-up of the host entry step() (40_cpu_step R150); under the free one, when the agenda is empty, one unit (R151, log 2). -/
def beginCpu (s : State) : State :=
  { s with busCalls := 0, dmaOwed := s.cfg.schedule == .eager || s.agenda.isEmpty }

/-- The CPU step from interrupt sampling on (40_cpu_step R166). -/
def fetchAndRun (s : State) : Result :=
  if irqRequest s then enterException .int s
  else if fetchFault s then enterException (.adEL s.pc) s
  else
    match memRead s.pc .b32 s with
    | .error e => .fault e
    | .ok (w, s') => runDecoded (decode w) s'

/-- A CPU step. -/
def cpuStep (s : State) : Result := fetchAndRun (beginCpu s)

end Sys2Proof.Machine
end

