-- ==== Sys2Proof/Machine/HostEntry.lean ====
section
/-! DEFINITION. What the host does between steps (00_scope R12): reset(), introspection, and restoring a saved state. -/

namespace Sys2Proof.Machine

/-- `reset()` (70_reset R460, R461, R463): every register to its reset value, both slots discarded, every DMA channel stopped;
RAM, SPAD and BIOS kept; the parameters unchanged; the external devices (their readiness, what they were sent, what comes
next) left to the host; the count of free values goes on (log 32). -/
def hostReset (s : State) : State :=
  { s with
    toSnapshot := { Snapshot.reset with mem := s.mem }
    busCalls := 0
    dmaOwed := false }

/-- The handler and the offset in it that introspection finds at a virtual address, `none` for an unmapped address or one
that is not a multiple of the width. -/
def introspectAt (cfg : Params) (vaddr : Word) (w : Width) : Option (Handler × Nat) :=
  if misaligned vaddr w then none
  else
    match lookup cfg (physAddr vaddr).toNat (segmentOf vaddr) with
    | none => none
    | some e => some (e.handler, (physAddr vaddr).toNat - e.base)

/-- An introspection read (20_memory R108): no side effect, no cycles, BUS_POLICY and the mode ignored. `none` where this
block defines no value: unmapped or misaligned addresses, external windows, and widths a register does not take. -/
def introspectRead (vaddr : Word) (w : Width) (s : State) : Option Word :=
  match introspectAt s.cfg vaddr w with
  | none => none
  | some (h, off) =>
    match coreRead h off w s with
    | .value v => some v
    | _ => none

/-- CHCR[n] after an introspection write of `v`: the bits a CPU write sets (65_dma R410), but START. START and the active flag
change together (65_dma R434), and no introspection begins or ends an active period (20_memory R108), so START stays
(DESIGN CHOICE, log 31). -/
def pokedChcr (n : Chan) (v old : Word) : Word := (chcrValue n v &&& ~~~startBit) ||| (old &&& startBit)

/-- A register of the DMA window set without the side effects of a CPU write (20_memory R108): no channel begins or stops, no
line is raised, and the FLAG bits of DICR are set as written (log 31). -/
def pokeDmaReg (r : DmaReg) (v : Word) (s : State) : State :=
  match r with
  | .madr n => setChan n { s.chan n with madr := v.setWidth 24 } s
  | .bcr n => setChan n { s.chan n with bcr := v } s
  | .chcr n => setChan n { s.chan n with chcr := pokedChcr n v (s.chan n).chcr } s
  | .dpcr => { s with dpcr := v }
  | .dicr => { s with dicr := { dicrValue s.dicr v with flag := v.extractLsb' 24 7 } }

/-- An introspection write (20_memory R108): memory (the BIOS image too) or a 32-bit device register, with no side effect;
nothing happens at an address or width that holds neither; device registers take 32 bits only, I_STAT and I_MASK too, though a
16-bit read of those two answers (DESIGN CHOICE, log 31). -/
def introspectWrite (vaddr : Word) (w : Width) (v : Word) (s : State) : State :=
  match introspectAt s.cfg vaddr w with
  | none => s
  | some (.ram, off) => { s with mem := writeMem s.mem (off % Layout.ramSize) w v }
  | some (.spad, off) => { s with mem := writeMem s.mem (Layout.spadBase + off) w v }
  | some (.bios, off) => { s with mem := writeMem s.mem (Layout.biosBase + off) w v }
  | some (.irq, off) =>
    if w = .b32 then (if off < 4 then { s with iStat := v.setWidth 11 } else { s with iMask := v.setWidth 11 }) else s
  | some (.dma, off) =>
    match dmaRegAt off with
    | none => s
    | some r => if w = .b32 then pokeDmaReg r v s else s
  | some (.cacheCtl, _) => if w = .b32 then { s with cacheCtl := v } else s
  | some (.external _, _) => s

/-- An introspection write of a general register (20_memory R108). -/
def pokeGpr (r : Reg) (v : Word) (s : State) : State := { s with gpr := s.gpr.write r v }

/-- An introspection write of a COP0 register (20_memory R108): its stored bits are set, whatever MTC0 may write; a number that
holds no store (10_state R43, R44) takes nothing. -/
def pokeCop0 (r : Reg) (v : Word) (s : State) : State :=
  match r.toNat with
  | 3 => { s with bpc := v }
  | 5 => { s with bda := v }
  | 7 => { s with dcic := v }
  | 8 => { s with badVAddr := v }
  | 9 => { s with bdam := v }
  | 11 => { s with bpcm := v }
  | 12 => { s with sr := v }
  | 13 => { s with cause := ⟨v.extractLsb' 2 5, v.extractLsb' 8 2, v.extractLsb' 28 2, v.getLsbD 31⟩ }
  | 14 => { s with epc := v }
  | _ => s

/-- An introspection write of a register (20_memory R108); a write sets the register's `written` flag (10_state R31). -/
def pokeReg (r : HostReg) (v : Word) (s : State) : State :=
  match r with
  | .gpr q => pokeGpr q v s
  | .hi => { s with hi := v, hiWritten := true }
  | .lo => { s with lo := v, loWritten := true }
  | .pc => { s with pc := v }
  | .cop0 q => pokeCop0 q v s

/-- An introspection read of a COP0 register (20_memory R108), the breakpoint stores too; `none` where there is no register. -/
def peekCop0 (r : Reg) (s : State) : Option Word :=
  match r.toNat with
  | 3 => some s.bpc
  | 5 => some s.bda
  | 7 => some s.dcic
  | 8 => some s.badVAddr
  | 9 => some s.bdam
  | 11 => some s.bpcm
  | 12 => some s.sr
  | 13 => some (causeWord s)
  | 14 => some s.epc
  | 15 => some Layout.pridValue
  | _ => none

/-- An introspection read of a register (20_memory R108): no step, no side effect, no pending load applied. A register that nothing
has written reads the value it holds, whatever UNWRITTEN_REG_POLICY is: the policy ends a step, and this is none (10_state R31;
DESIGN CHOICE, log 40). -/
def peekReg (r : HostReg) (s : State) : Option Word :=
  match r with
  | .gpr q => some (s.reg q)
  | .hi => some s.hi
  | .lo => some s.lo
  | .pc => some s.pc
  | .cop0 q => peekCop0 q s

/-- Restoring a save-state between steps (70_reset R464): the state of 10_state becomes the saved one, which must pass the
configuration check (20_memory R93). What 10_state does not hold stays as it is: the parameters, the devices' readiness, the
record of what was sent, the agenda, and the count of free values, so that no draw is repeated (DESIGN CHOICE, log 37). -/
def restore (saved : Snapshot) (s : State) : Result :=
  if configOk { s with toSnapshot := saved } then .next { s with toSnapshot := saved } else .fault .configFault

end Sys2Proof.Machine
end

