-- ==== Sys2Proof/Machine/Agents.lean ====
section
/-! DEFINITION. Which agent moves (40_cpu_step R150, R151). One transition is one step of the model: the DMA units owed after a
CPU step come first, with device events between them as the agenda says; then the next turn of the agenda; with an empty
agenda, a CPU step. -/

namespace Sys2Proof.Machine

/-- A DMA step is enabled (65_dma R418): some channel is serviceable, and no fault or refusal is recorded. -/
def dmaEnabled (s : State) : Bool := s.faults.isEmpty && !s.refused && (nextChan s).isSome

/-- A CPU step, or a DMA step taken by choice, is enabled only with no fault and no refusal recorded (40_cpu_step R152, 65_dma
R418). Device events and host entries are not held back. -/
def ifEnabled (s : State) (run : Result) : Result :=
  match s.faults with
  | f :: _ => .fault f
  | [] => if s.refused then .refused .markedRefused else run

/-- A DMA unit is owed and can be taken: under the eager schedule, the catch-up of the host entry step() is not over (40_cpu_step
R150); under the free one, the DMA engine's turn between two CPU steps of the default order has come (R151). -/
def catchingUp (s : State) : Bool := s.dmaOwed && dmaEnabled s

/-- Device n changes its readiness (65_dma R402). -/
def setReady (n : Chan) (b : Bool) (s : State) : State := { s with dmaReady := s.dmaReady.set n.val b n.isLt }

/-- One turn of the agenda (40_cpu_step R151). A DMA turn that is no transition of R151 does nothing: under the eager schedule
with no unit owed, and with no channel serviceable (log 9). -/
def takeTurn (t : Turn) (s : State) : Result :=
  match t with
  | .cpu => ifEnabled s (cpuStep s)
  | .dma => ifEnabled s (.next (if s.cfg.schedule = .free then dmaStep s else s))
  | .raise l => .next (raiseLine l s)
  | .setReady n b => .next (setReady n b s)
  | .hostReset => .next (hostReset s)
  | .poke a w v => .next (introspectWrite a w v s)
  | .pokeReg r v => .next (pokeReg r v s)
  | .restore saved => restore saved s

/-- The turn that comes next: the agenda's first, or a CPU step. -/
def nextTurn (s : State) : Turn := s.agenda.headD .cpu

/-- Nothing is owed any more, and the next turn is taken from the agenda. -/
def startTurn (s : State) : State := { s with dmaOwed := false, agenda := s.agenda.tail }

/-- One owed DMA unit. Under the eager schedule more may be owed, until no channel is serviceable (40_cpu_step R150); under the
free one a single unit is, so that neither the CPU nor the DMA engine is kept waiting for ever (R151). -/
def owedUnit (s : State) : State := { dmaStep s with dmaOwed := s.dmaOwed && s.cfg.schedule == .eager }

/-- A transition while a DMA unit is owed: a device event that the agenda puts here (40_cpu_step R151), or the unit. A DMA turn of
the agenda is that unit; a host entry or a CPU step waits. -/
def catchUpTurn (s : State) : State :=
  match s.agenda with
  | .raise l :: rest => raiseLine l { s with agenda := rest }
  | .setReady n b :: rest => setReady n b { s with agenda := rest }
  | .dma :: rest => owedUnit { s with agenda := rest }
  | _ => owedUnit s

/-- One transition. -/
def transition (s : State) : Result :=
  if catchingUp s then .next (catchUpTurn s) else takeTurn (nextTurn s) (startTurn s)

/-- No step is taken in a configuration that fails the check of 20_memory R93 (log 27). -/
def guarded (s : State) : Result := if configOk s then transition s else .fault .configFault

/-! What a stop leaves. -/

/-- A model fault is recorded in the sticky list (00_scope R13), once, and no other state changes. -/
def recordFault (f : Fault) (s : State) : State :=
  if f ∈ s.faults then s else { s with faults := s.faults ++ [f] }

/-- A refusal sets the sticky mark (00_scope R14), and no other state changes. -/
def recordRefusal (s : State) : State := { s with refused := true }

/-- The machine after one transition, a stop included: the next state; or, when the transition ends in a fault or a refusal, the
state before it with that recorded and the turn taken from the agenda. The machine goes on from there with device events and
host entries, such as a reset() that clears the marks (40_cpu_step R151, 70_reset R460; log 26). -/
def advance (s : State) : State :=
  match guarded s with
  | .next t => t
  | .fault f => recordFault f (startTurn s)
  | .refused _ => recordRefusal (startTurn s)

/-- The DMA units of one catch-up; `none` when more than `fuel` are needed. -/
def catchUp (fuel : Nat) (s : State) : Option State :=
  match fuel with
  | 0 => if dmaEnabled s then none else some s
  | k + 1 => if dmaEnabled s then catchUp k (dmaStep s) else some s

/-- The host entry step() (40_cpu_step R150) with no device event during it: one CPU step, under the eager schedule the DMA units
until no channel is serviceable, and the elapsed cycles. `none`: the catch-up takes more than `fuel` units (one that never
ends, of a looping chain, takes more than any: 65_dma R424). The state a fault or a refusal leaves is `advance s`. -/
def hostStep (fuel : Nat) (s : State) : Option (Host.Outcome (State × Nat) Fault Refusal) :=
  if configOk s then
    match ifEnabled s (cpuStep s) with
    | .fault f => some (.fault f)
    | .refused r => some (.refused r)
    | .next t =>
      (if s.cfg.schedule = .eager then catchUp fuel t else some t).map
        (fun u => .next ({ u with dmaOwed := false }, u.cycles - s.cycles))
  else some (.fault .configFault)

end Sys2Proof.Machine
end

