-- ==== Sys2Proof/Machine/Step.lean ====
section
/-! DEFINITION. One step of the machine, and how an instruction is placed where the next step fetches it. -/

namespace Sys2Proof.Machine

/-- One transition of the machine (40_cpu_step R151). -/
def step (s : State) : Host.Outcome State Fault Refusal := guarded s

/-- `s` with the word of an opcode-table row stored at the pc, and nothing before the CPU step that fetches it. -/
def State.withFetchWord (s : State) (nbits w : Nat) : State :=
  { introspectWrite s.pc .b32 (tableWord nbits w) s with agenda := [], dmaOwed := false }

end Sys2Proof.Machine
end

