-- ==== Sys2Proof/Safety.lean ====
section
/-! DEFINITION. What claims say: the end of a run, a state that may step, the invariant of the machine, what a state is after
an instruction has retired or an exception has been entered, and what stayed as it was. -/

namespace Sys2Proof.Machine

/-- The end of a run (40_cpu_step R165): a boundary at `stopPc` with no pending branch, no fault recorded and no refusal. The
boundary is that of one transition of R151, so under the eager schedule it may come before the DMA units that step() still
owes (DESIGN CHOICE, log 39): a claim about what they leave adds `catchingUp s = false`. -/
def atStop (stopPc : Word) (s : State) : Bool :=
  s.pc == stopPc && s.br.isNone && s.faults.isEmpty && !s.refused

/-- A CPU step is enabled (40_cpu_step R152), in a configuration that passes the check of 20_memory R93. -/
def live (s : State) : Bool := s.faults.isEmpty && !s.refused && configOk s

/-- The next transition is a CPU step: no DMA unit is owed and the agenda does not say otherwise. -/
def cpuNext (s : State) : Bool := live s && !catchingUp s && nextTurn s == .cpu

/-- The state in which that CPU step samples interrupts and fetches. -/
def atFetch (s : State) : State := beginCpu (startTurn s)

/-- The next transition is a DMA step: one is enabled, and it is owed with no device event before it, or the agenda takes it under
the free schedule (40_cpu_step R151). -/
def dmaNext (s : State) : Bool :=
  configOk s && dmaEnabled s &&
    match s.agenda with
    | .raise _ :: _ => false
    | .setReady _ _ :: _ => false
    | .dma :: _ => s.dmaOwed || s.cfg.schedule == .free
    | _ => s.dmaOwed

/-- The state after `k` transitions, or the stop before it. -/
def stepN (k : Nat) (s : State) : Result :=
  match k with
  | 0 => .next s
  | k + 1 =>
    match step s with
    | .next t => stepN k t
    | o => o

/-- A run without end. Its device events and chosen turns are those of the agenda, so they are finitely many (DESIGN CHOICE, log 1). -/
def Run (r : Nat → State) : Prop := ∀ k, step (r k) = .next (r (k + 1))

/-- Weak fairness for the DMA engine (40_cpu_step R151): a DMA step that stays enabled is taken. -/
def DmaFair (r : Nat → State) : Prop := ∀ k, (∀ j, k ≤ j → dmaEnabled (r j) = true) → ∃ j, k ≤ j ∧ dmaNext (r j) = true

/-- Fairness for the CPU (40_cpu_step R151): again and again a CPU step is taken. -/
def CpuFair (r : Nat → State) : Prop := ∀ k, ∃ j, k ≤ j ∧ cpuNext (r j) = true

/-- No DMA diagnostic is recorded, the premise of every claim by 00_scope R15. -/
def noDiag (s : State) : Bool := s.dma.toList.all (fun c => c.diag.isEmpty)

/-- A further exception entry is defined (60_exceptions R356): fewer than two are open, or the oldest is discarded. -/
def nestOk (s : State) : Bool := decide (s.excDepth.val < 2) || s.cfg.nestPolicy == .discardOldest

/-! The invariant. -/

/-- START = 1 exactly when the channel is active (65_dma R434). -/
abbrev startIffActive (s : Snapshot) : Prop := ∀ n : Chan, (s.dma.get n).active = chcrStart (s.dma.get n).chcr

/-- A memory cell belongs to RAM, SPAD or BIOS (20_memory R89). -/
def cellInMap (a : Nat) : Bool :=
  decide (a < 0x00200000) || (decide (0x1F800000 ≤ a) && decide (a < 0x1F800400)) ||
    (decide (0x1FC00000 ≤ a) && decide (a < 0x1FC80000))

/-- The invariant of the state of 10_state: memory is in canonical form and lists only cells of the map, and START = 1 exactly when
a channel is active. -/
structure Snapshot.Inv (s : Snapshot) : Prop where
  wf    : Memory.wf s.mem
  inMap : ∀ c ∈ s.mem, cellInMap c.1 = true
  start : startIffActive s

/-- The invariant every transition keeps: that of the state of 10_state, for this state and for every save-state the agenda still
restores, and the configuration passes its check. -/
structure Inv (s : State) : Prop where
  now    : s.toSnapshot.Inv
  saved  : ∀ snap, .restore snap ∈ s.agenda → snap.Inv
  config : configOk s = true

/-! After an instruction. -/

/-- General register q after an instruction with the immediate write `wr` and the delayed write `ld` has retired (40_cpu_step
R158, R159): its own write wins; otherwise the pending load of the previous instruction becomes visible, unless `ld` names
the same register; otherwise it is unchanged. -/
def regAfter (s : State) (wr ld : Option RegWrite) (q : Reg) : Word :=
  if q = 0 then 0
  else if names wr q then (wr.map (·.val)).getD 0
  else if names s.ld q && !names ld q then (s.ld.map (·.val)).getD 0
  else s.reg q

/-- `t` is `s` after an instruction of effect `e` has retired (40_cpu_step R156, R158; 10_state R31, R63). -/
structure Retired (e : Effect) (s t : State) : Prop where
  regs    : ∀ q, t.reg q = regAfter s e.wr e.ld q
  written : ∀ q : Reg, q ≠ 0 → t.gpr.written.get q.toFin =
              (s.gpr.written.get q.toFin || names e.wr q || (names s.ld q && !names e.ld q))
  slot    : t.ld = e.ld
  branch  : t.br = e.br
  pc      : t.pc = if e.br.isSome then s.pc + 4 else s.br.getD (s.pc + 4)
  hi      : t.hi = e.hi.getD s.hi
  lo      : t.lo = e.lo.getD s.lo
  hiSet   : t.hiWritten = (s.hiWritten || e.hi.isSome)
  loSet   : t.loWritten = (s.loWritten || e.lo.isSome)
  age     : t.hiloAge.val = if e.readsHiLo then 2 else s.hiloAge.val - 1

/-- Every byte of memory reads as before. -/
abbrev sameMemory (s t : State) : Prop := ∀ a, readByte t.mem a = readByte s.mem a

/-- Nothing but the general registers, hi, lo, the two slots, the pc and hilo_age has changed. -/
structure CpuFrame (s t : State) : Prop where
  only : t = { s with
    gpr := t.gpr, hi := t.hi, lo := t.lo, hiWritten := t.hiWritten, loWritten := t.loWritten, pc := t.pc, ld := t.ld,
    br := t.br, hiloAge := t.hiloAge }
  mem : sameMemory s t

/-- Nothing but the general registers, the two slots, the pc and hilo_age has changed, and the bus has counted one call of
handler `h` with its cycles. -/
structure LoadFrame (h : Handler) (s t : State) : Prop where
  only : t = { s with
    gpr := t.gpr, pc := t.pc, ld := t.ld, br := t.br, hiloAge := t.hiloAge,
    cycles := s.cycles + latencyOf h, busCalls := s.busCalls + 1 }
  mem : sameMemory s t

/-- As `LoadFrame`, with memory changed and `calls` calls of the handler: what memory became is said beside it. -/
abbrev StoreFrame (h : Handler) (calls : Nat) (s t : State) : Prop :=
  t = { s with
    gpr := t.gpr, pc := t.pc, ld := t.ld, br := t.br, hiloAge := t.hiloAge, mem := t.mem,
    cycles := s.cycles + calls * latencyOf h, busCalls := s.busCalls + calls }

/-- The bytes of memory after `n` bytes of `v` are stored from cell `a` on, little-endian; the BIOS keeps its own. -/
def byteAfterStore (h : Handler) (m : List Host.Cell) (a n : Nat) (v : Word) (x : Nat) : Byte :=
  if h ≠ .bios ∧ a ≤ x ∧ x < a + n then v.extractLsb' (8 * (x - a)) 8 else readByte m x

/-- The aligned word at cell `a`, little-endian (20_memory R84). -/
def wordAt (m : List Host.Cell) (a : Nat) : Word :=
  readByte m (a + 3) ++ readByte m (a + 2) ++ readByte m (a + 1) ++ readByte m a

/-- The instruction answers a next state in which it has retired with effect `e`, and nothing else has changed. -/
def Completes (i : Instr) (e : Effect) (s : State) : Prop :=
  ∃ t, exec i s = .next t ∧ Retired e s t ∧ CpuFrame s t

/-! After an exception entry. -/

/-- `t` is `s` after entering exception `x` (60_exceptions R350 to R355) with code `code`. -/
structure Entered (x : Exc) (code : Nat) (s t : State) : Prop where
  regs    : ∀ q, t.reg q = regAfter s none none q
  written : ∀ q : Reg, q ≠ 0 → t.gpr.written.get q.toFin = (s.gpr.written.get q.toFin || names s.ld q)
  slot    : t.ld = none
  branch  : t.br = none
  epc     : t.epc = if s.br.isSome then s.pc - 4 else s.pc
  bd      : (causeWord t).getLsbD 31 = s.br.isSome
  code    : ((causeWord t).extractLsb' 2 5).toNat = code
  ce      : ∀ z, x = .cpU z → (causeWord t).extractLsb' 28 2 = z
  ip      : t.cause.ip = s.cause.ip
  bad     : t.badVAddr = match x with | .adEL a => a | .adES a => a | _ => s.badVAddr
  mode    : t.sr.extractLsb' 0 6 = s.sr.extractLsb' 0 4 ++ 0#2
  status  : t.sr.extractLsb' 6 26 = s.sr.extractLsb' 6 26
  depth   : t.excDepth.val = min (s.excDepth.val + 1) 2
  pc      : t.pc = if s.sr.getLsbD 22 then 0xBFC00180#32 else 0x80000080#32
  only    : t = { s with
              gpr := t.gpr, ld := t.ld, br := t.br, epc := t.epc, cause := t.cause, draws := t.draws,
              badVAddr := t.badVAddr, sr := t.sr, excDepth := t.excDepth, pc := t.pc }
  mem     : sameMemory s t

/-- The instruction answers a next state in which exception `x` has been entered. -/
def Takes (x : Exc) (code : Nat) (i : Instr) (s : State) : Prop := ∃ t, exec i s = .next t ∧ Entered x code s t

/-! DMA. -/

/-- Nothing the CPU, COP0 or a device window owns differs: only memory, the DMA registers, DICR, I_STAT, the cycle count, the
free-value count and the words delivered to devices may. -/
abbrev DmaFrame (s t : State) : Prop :=
  t = { s with
    mem := t.mem, dma := t.dma, dicr := t.dicr, iStat := t.iStat, cycles := t.cycles, draws := t.draws,
    emitted := t.emitted }

/-- What the completion of channel n does to DICR and I_STAT (65_dma R426): its flag is set whatever IE holds, no other bit of DICR
changes, and line 3 is raised exactly when IE[n] and MIE are set. -/
structure CompletionNoted (n : Chan) (s t : State) : Prop where
  flag : ∀ m : Chan, t.dicr.flag.getLsbD m.val = (s.dicr.flag.getLsbD m.val || decide (m = n))
  only : t.dicr = { s.dicr with flag := t.dicr.flag }
  line : t.iStat = if s.dicr.ie.getLsbD n.val = true ∧ s.dicr.mie = true then s.iStat ||| 8#11 else s.iStat

/-- Neither DICR nor I_STAT has changed. -/
abbrev NothingNoted (s t : State) : Prop := t.dicr = s.dicr ∧ t.iStat = s.iStat

/-- What moving `words` words between RAM and the engine adds to the cycle count (20_memory R98). -/
abbrev ramCycles (words : Nat) (s t : State) : Prop := t.cycles = s.cycles + words * latencyOf .ram

/-- Every channel but `n` is unchanged. -/
abbrev otherChans (n : Chan) (s t : State) : Prop := ∀ m : Chan, m ≠ n → t.chan m = s.chan m

end Sys2Proof.Machine
end

