-- ==== Sys2Proof/Certificates/Slice0/Obligations.lean ====
section
/-! DEFINITION. The statements for the provers, file by file of spec/. -/

open Sys2Proof Sys2Proof.Machine

/-! ## Encoding (30_encoding) -/

/-- 30_encoding R121 to R124, R126 to R130: decoding the encoding of any instruction gives that instruction back, with every operand
at every value. -/
def Obligations.DecodeOfEncode : Prop := ∀ i : Instr, decode (encode i) = .instr i

/-- 30_encoding R126, R132: changing any bits of the fields an instruction does not use changes nothing; and a word that decodes to
an instruction and has 0 in those fields is the instruction's encoding: that the encoder writes 0 there is the model's choice
(log 30). -/
def Obligations.UnusedFieldsIgnored : Prop :=
  ∀ (w m : Word) (i : Instr), decode w = .instr i →
    decode (w ^^^ (m &&& i.unusedBits)) = .instr i ∧ (i.canonicalWord w = true → encode i = w)

/-- 30_encoding R127 to R131: the words that are reserved are exactly those of a cell marked RI, and the words refused as REGIMM or
COP0 words that are no instruction are exactly those their maps name. -/
def Obligations.ReservedCells : Prop :=
  ∀ w : Word, (decode w = .reserved ↔
    (w.extractLsb' 26 6).toNat ∈ [0x14, 0x15, 0x16, 0x17, 0x18, 0x19, 0x1A, 0x1B, 0x1C, 0x1D, 0x1E, 0x1F, 0x27, 0x2C, 0x2D,
      0x2F, 0x34, 0x35, 0x36, 0x37, 0x3C, 0x3D, 0x3E, 0x3F] ∨
    ((w.extractLsb' 26 6).toNat = 0 ∧
      ((w.extractLsb' 0 6).toNat ∈ [0x01, 0x05, 0x0A, 0x0B, 0x0E, 0x0F, 0x14, 0x15, 0x16, 0x17, 0x1C, 0x1D, 0x1E, 0x1F, 0x28, 0x29]
        ∨ 0x2C ≤ (w.extractLsb' 0 6).toNat))) ∧
    (decode w = .otherRegimm ↔
      w.extractLsb' 26 6 = 0x01 ∧ (w.extractLsb' 16 5).toNat ∉ [0x00, 0x01, 0x10, 0x11]) ∧
    (decode w = .otherCop0 ↔
      w.extractLsb' 26 6 = 0x10 ∧ w.extractLsb' 21 5 ≠ 0x00 ∧ w.extractLsb' 21 5 ≠ 0x04 ∧
        ¬(0x10 ≤ (w.extractLsb' 21 5).toNat ∧ w.extractLsb' 0 6 = 0x10))

/-- Words of the spec's examples decode to the instructions they stand for (41_alu R182, R199, R200; 42_muldiv R232; 43_branch_jump
R253, R263; 44_load_store R288, R295; 45_cop_system R311, R316, R324). A check on fixed words. -/
def Obligations.ExampleWordsDecode : Prop :=
  decode 0x01095020#32 = .instr (.add 10 8 9) ∧ decode 0x3C098001#32 = .instr (.lui 9 0x8001#16) ∧
  decode 0x00084FC0#32 = .instr (.sll 9 8 31) ∧ decode 0x01090018#32 = .instr (.mult 8 9) ∧
  decode 0x0C100000#32 = .instr (.jal 0x100000#26) ∧ decode 0x05110010#32 = .instr (.bgezal 8 0x10#16) ∧
  decode 0x8D090002#32 = .instr (.lw 9 8 2#16) ∧ decode 0xAD090000#32 = .instr (.sw 9 8 0#16) ∧
  decode 0x40086000#32 = .instr (.mfc0 8 12) ∧ decode 0x42000010#32 = .instr .rfe ∧
  decode 0x0000000C#32 = .instr (.syscall 0#20)

/-! ## The CPU step (40_cpu_step) -/

/-- 40_cpu_step R152, R154, R166: when the next transition is a CPU step, no interrupt is requested, the pc may be fetched and the
fetched word decodes to an instruction that is no branch in a delay slot, the step is that instruction's meaning in the
state the fetch left. The step adds, before the fetch: the agenda's head is taken, the DMA units that come after the step are
noted as owed, and the count of handler calls restarts (`atFetch`). -/
def Obligations.StepRunsDecodedInstruction : Prop :=
  ∀ (s s' : State) (w : Word) (i : Instr), cpuNext s = true → irqRequest s = false → fetchFault s = false →
    memRead s.pc .b32 (atFetch s) = .ok (w, s') → decode w = .instr i → (s.br.isSome && isBranch i) = false →
    step s = exec i s'

/-- 20_memory R84, R96, R107; 30_encoding R120: a fetch from RAM, SPAD or BIOS reads the four bytes at the pc little-endian, and only
counts the handler call and its cycles. -/
def Obligations.FetchReadsMemory : Prop :=
  ∀ (s : State) (h : Handler) (a : Nat), memoryAt s.cfg s.pc = some (h, a) →
    memRead s.pc .b32 s = .ok (wordAt s.mem a,
      { s with cycles := s.cycles + latencyOf h, busCalls := s.busCalls + 1 })

/-- 60_exceptions R376: IrqRequest is IEc and one of the requests IP[2] (the controller's), IP[1], IP[0] with its IM bit set. -/
def Obligations.InterruptRequestCondition : Prop :=
  ∀ s : State, irqRequest s = true ↔
    s.sr.getLsbD 0 = true ∧
      ((s.sr.getLsbD 10 = true ∧ ∃ l : Line, s.iStat.getLsbD l.val = true ∧ s.iMask.getLsbD l.val = true) ∨
        (s.sr.getLsbD 9 = true ∧ s.cause.ip.getLsbD 1 = true) ∨
        (s.sr.getLsbD 8 = true ∧ s.cause.ip.getLsbD 0 = true))

/-- 40_cpu_step R153, R160; 60_exceptions R377; 20_memory R82; 30_encoding R129 to R131: the CPU steps that run no instruction. A
requested interrupt is taken before the fetch, whatever the pc is; with none, a misaligned pc, or in user mode one with bit
31 set, raises AdEL with BADVADDR the pc, and neither fetches. A fetched word of a reserved encoding raises RI, a branch in a
delay slot is the fault NestedBranch, an unlisted REGIMM word and (after the usability check) an unlisted COP0 word are
refused. -/
def Obligations.StepsThatRunNoInstruction : Prop :=
  ∀ s : State, cpuNext s = true →
    (irqRequest s = true → nestOk s = true → ∃ t, step s = .next t ∧ Entered .int 0 (atFetch s) t) ∧
    (irqRequest s = false → nestOk s = true → (s.pc.toNat % 4 ≠ 0 ∨ (s.sr.getLsbD 1 = true ∧ s.pc.getLsbD 31 = true)) →
      ∃ t, step s = .next t ∧ Entered (.adEL s.pc) 4 (atFetch s) t) ∧
    ∀ (s' : State) (w : Word), irqRequest s = false → fetchFault s = false → memRead s.pc .b32 (atFetch s) = .ok (w, s') →
      (decode w = .reserved → nestOk s = true → ∃ t, step s = .next t ∧ Entered .ri 10 s' t) ∧
      (∀ i, decode w = .instr i → isBranch i = true → s.br.isSome = true → step s = .fault .nestedBranch) ∧
      (decode w = .otherRegimm → step s = .refused .refuseRegimm) ∧
      (decode w = .otherCop0 → (s.sr.getLsbD 1 = false ∨ s.sr.getLsbD 28 = true) → step s = .refused .refuseCop0Op) ∧
      (decode w = .otherCop0 → s.sr.getLsbD 1 = true → s.sr.getLsbD 28 = false → nestOk s = true →
        ∃ t, step s = .next t ∧ Entered (.cpU 0) 11 s' t)

/-- 40_cpu_step R156, R163: whatever instruction other than a branch runs in a delay slot, the next pc is the branch's target and the
slot is empty, unless it enters an exception, which discards the slot too. -/
def Obligations.DelaySlotGoesToTarget : Prop :=
  ∀ (i : Instr) (s t : State) (target : Word), isBranch i = false → s.br = some target → exec i s = .next t →
    t.br = none ∧ (t.pc = target ∨ (t.epc = s.pc - 4 ∧ (causeWord t).getLsbD 31 = true ∧
      (t.pc = 0x80000080#32 ∨ t.pc = 0xBFC00180#32)))

/-- 40_cpu_step R158, R164: after a load of register r the next instruction reads the old r, and the one after it reads the loaded
value (the next instruction here is ADDU to another register). -/
def Obligations.LoadDelay : Prop :=
  ∀ (s : State) (r q d : Reg) (off : BitVec 16) (base : Reg) (h : Handler) (a : Nat),
    memoryAt s.cfg (effAddr base off s) = some (h, a) → addrFault (effAddr base off s) .b32 s = false →
    canReadAll s [base, r, q] = true → srIsC s = false → r ≠ 0 → d ≠ 0 → d ≠ r → s.ld = none →
    ∃ t u, exec (.lw r base off) s = .next t ∧ exec (.addu d r q) t = .next u ∧
      u.reg d = s.reg r + s.reg q ∧ u.reg r = wordAt s.mem a

/-- 10_state R31, 60_exceptions R360: under UNWRITTEN_REG_POLICY = fault an instruction that reads a general register, hi or lo that
nothing has written is the fault UnwrittenRead, before any exception check that reads it: after the checks of LinkSameReg,
HiLoHazard and COP0 usability, after the address checks for the register a store stores (an isolated store does not read
it), and after the bus read for the register LWL and LWR merge into, unless a load of it is pending. What comes before the read
is the model's order (log 11). Under the policy draw no instruction faults so. -/
def Obligations.UnwrittenReads : Prop :=
  ∀ (s : State) (rd rs rt : Reg) (sh : BitVec 5) (imm : BitVec 16),
    (s.cfg.unwritten = .draw → ∀ i : Instr, exec i s ≠ .fault .unwrittenRead) ∧
    (s.cfg.unwritten = .fault →
      let unset := fun r : Reg => r ≠ 0 ∧ s.gpr.written.get r.toFin = false
      let ea := s.reg rs + imm.signExtend 32
      let noHazard := s.hiloAge = 0 ∨ s.cfg.hiloHazard = .ignore
      (unset rs → ∀ i ∈ [Instr.add rd rs rt, .addu rd rs rt, .sub rd rs rt, .subu rd rs rt, .and rd rs rt, .or rd rs rt, .xor rd rs rt,
          .nor rd rs rt, .slt rd rs rt, .sltu rd rs rt, .addi rt rs imm, .addiu rt rs imm, .slti rt rs imm, .sltiu rt rs imm,
          .andi rt rs imm, .ori rt rs imm, .xori rt rs imm, .sllv rd rt rs, .srlv rd rt rs, .srav rd rt rs, .jr rs, .beq rs rt imm,
          .bne rs rt imm, .blez rs imm, .bgtz rs imm, .bltz rs imm, .bgez rs imm, .lb rt rs imm, .lbu rt rs imm, .lh rt rs imm,
          .lhu rt rs imm, .lw rt rs imm, .lwl rt rs imm, .lwr rt rs imm, .sb rt rs imm, .sh rt rs imm, .sw rt rs imm,
          .swl rt rs imm, .swr rt rs imm], exec i s = .fault .unwrittenRead) ∧
      (unset rt → ∀ i ∈ [Instr.add rd rs rt, .addu rd rs rt, .sub rd rs rt, .subu rd rs rt, .and rd rs rt, .or rd rs rt, .xor rd rs rt,
          .nor rd rs rt, .slt rd rs rt, .sltu rd rs rt, .sll rd rt sh, .srl rd rt sh, .sra rd rt sh, .sllv rd rt rs, .srlv rd rt rs,
          .srav rd rt rs, .beq rs rt imm, .bne rs rt imm], exec i s = .fault .unwrittenRead) ∧
      (unset rs ∨ unset rt → noHazard → ∀ i ∈ [Instr.mult rs rt, .multu rs rt, .div rs rt, .divu rs rt],
        exec i s = .fault .unwrittenRead) ∧
      (unset rs → noHazard → exec (.mthi rs) s = .fault .unwrittenRead ∧ exec (.mtlo rs) s = .fault .unwrittenRead) ∧
      (s.hiWritten = false → exec (.mfhi rd) s = .fault .unwrittenRead) ∧
      (s.loWritten = false → exec (.mflo rd) s = .fault .unwrittenRead) ∧
      (unset rs → rd ≠ rs → exec (.jalr rd rs) s = .fault .unwrittenRead) ∧
      (unset rs → rs ≠ 31 → exec (.bltzal rs imm) s = .fault .unwrittenRead ∧ exec (.bgezal rs imm) s = .fault .unwrittenRead) ∧
      (unset rt → (s.sr.getLsbD 1 = false ∨ s.sr.getLsbD 28 = true) → exec (.mtc0 rt rd) s = .fault .unwrittenRead) ∧
      (unset rt → srIsC s = false → (srKUc s = true → ea.getLsbD 31 = false) →
        (∀ row ∈ ([(.sb rt rs imm, 1), (.sh rt rs imm, 2), (.sw rt rs imm, 4), (.swl rt rs imm, 1), (.swr rt rs imm, 1)] :
            List (Instr × Nat)), ea.toNat % row.2 = 0 → exec row.1 s = .fault .unwrittenRead) ∧
        (names s.ld rt = false → (∃ v s', memRead (ea &&& 0xFFFFFFFC#32) .b32 s = .ok (v, s')) →
          exec (.lwl rt rs imm) s = .fault .unwrittenRead ∧ exec (.lwr rt rs imm) s = .fault .unwrittenRead)))

/-! ## Arithmetic, logical and shift instructions (41_alu) -/

/-- 41_alu R183, R185 to R191: the register-register instructions that never trap, with their encodings: each answers a next state
with its result in rd, and nothing else changes. -/
def Obligations.AluRegisterResults : Prop :=
  ∀ (s : State) (rd rs rt : Reg) (sh : BitVec 5),
    let a := s.reg rs
    let b := s.reg rt
    canReadAll s [rs, rt] = true →
    ∀ row ∈ ([(0x21#6, .addu rd rs rt, a + b), (0x23#6, .subu rd rs rt, a - b), (0x24#6, .and rd rs rt, a &&& b),
        (0x25#6, .or rd rs rt, a ||| b), (0x26#6, .xor rd rs rt, a ^^^ b), (0x27#6, .nor rd rs rt, ~~~(a ||| b)),
        (0x2A#6, .slt rd rs rt, if a.toInt < b.toInt then 1 else 0),
        (0x2B#6, .sltu rd rs rt, if a.toNat < b.toNat then 1 else 0)] : List (BitVec 6 × Instr × Word)),
      decode (rWord rs rt rd sh row.1) = .instr row.2.1 ∧
        Completes row.2.1 { wr := some ⟨rd, row.2.2⟩ } s

/-- 41_alu R181, R182, R184, R192: ADD, SUB and ADDI, with their encodings: when the exact signed result fits in 32 bits it is written
and nothing else changes; otherwise Ov is raised, whatever the destination, and the destination keeps its value (it is
only changed by a pending load of the previous instruction, which every entry commits). -/
def Obligations.AluTrappingResults : Prop :=
  ∀ (s : State) (rd rs rt : Reg) (sh : BitVec 5) (imm : BitVec 16),
    let a := s.reg rs
    let b := s.reg rt
    let m := imm.signExtend 32
    decode (rWord rs rt rd sh 0x20) = .instr (.add rd rs rt) ∧ decode (rWord rs rt rd sh 0x22) = .instr (.sub rd rs rt) ∧
    decode (iWord 0x08 rs rt imm) = .instr (.addi rt rs imm) ∧
    ∀ row ∈ ([(.add rd rs rt, [rs, rt], rd, a + b, a.toInt + b.toInt), (.sub rd rs rt, [rs, rt], rd, a - b, a.toInt - b.toInt),
        (.addi rt rs imm, [rs], rt, a + m, a.toInt + m.toInt)] : List (Instr × List Reg × Reg × Word × Int)),
      canReadAll s row.2.1 = true →
      (-(2 ^ 31) ≤ row.2.2.2.2 ∧ row.2.2.2.2 ≤ 2 ^ 31 - 1 → Completes row.1 { wr := some ⟨row.2.2.1, row.2.2.2.1⟩ } s) ∧
      (¬(-(2 ^ 31) ≤ row.2.2.2.2 ∧ row.2.2.2.2 ≤ 2 ^ 31 - 1) → nestOk s = true → Takes .ov 12 row.1 s)

/-- 41_alu R193 to R199: the immediate instructions that never trap, with their encodings. -/
def Obligations.AluImmediateResults : Prop :=
  ∀ (s : State) (rt rs : Reg) (imm : BitVec 16),
    let a := s.reg rs
    let m := imm.signExtend 32
    let z := imm.setWidth 32
    ∀ row ∈ ([(0x09#6, .addiu rt rs imm, [rs], a + m), (0x0A#6, .slti rt rs imm, [rs], if a.toInt < m.toInt then 1 else 0),
        (0x0B#6, .sltiu rt rs imm, [rs], if a.toNat < m.toNat then 1 else 0), (0x0C#6, .andi rt rs imm, [rs], a &&& z),
        (0x0D#6, .ori rt rs imm, [rs], a ||| z), (0x0E#6, .xori rt rs imm, [rs], a ^^^ z),
        (0x0F#6, .lui rt imm, [], imm ++ 0#16)] : List (BitVec 6 × Instr × List Reg × Word)),
      decode (iWord row.1 rs rt imm) = .instr row.2.1 ∧
        (canReadAll s row.2.2.1 = true → Completes row.2.1 { wr := some ⟨rt, row.2.2.2⟩ } s)

/-- 41_alu R200 to R205: the shifts, with their encodings. A variable shift uses bits 4:0 of x[rs]; SRA and SRAV shift in copies of
bit 31, so that the result is the signed value divided by the power of two, rounded down. -/
def Obligations.ShiftResults : Prop :=
  ∀ (s : State) (rd rt rs : Reg) (sh : BitVec 5),
    let b := s.reg rt
    let n := (s.reg rs).toNat % 32
    ∀ row ∈ ([(0x00#6, .sll rd rt sh, [rt], b <<< sh.toNat), (0x02#6, .srl rd rt sh, [rt], b >>> sh.toNat),
        (0x03#6, .sra rd rt sh, [rt], BitVec.ofInt 32 (b.toInt / 2 ^ sh.toNat)), (0x04#6, .sllv rd rt rs, [rs, rt], b <<< n),
        (0x06#6, .srlv rd rt rs, [rs, rt], b >>> n),
        (0x07#6, .srav rd rt rs, [rs, rt], BitVec.ofInt 32 (b.toInt / 2 ^ n))] : List (BitVec 6 × Instr × List Reg × Word)),
      decode (rWord rs rt rd sh row.1) = .instr row.2.1 ∧
        (canReadAll s row.2.2.1 = true → Completes row.2.1 { wr := some ⟨rd, row.2.2.2⟩ } s)

/-! ## Multiply and divide (42_muldiv) -/

/-- 42_muldiv R232, R233: MULT and MULTU, with their encodings: without the HI/LO hazard they put the exact 64-bit signed or unsigned
product in hi and lo, and nothing else changes. -/
def Obligations.MultiplyResults : Prop :=
  ∀ (s : State) (rs rt rd : Reg) (sh : BitVec 5), (s.hiloAge = 0 ∨ s.cfg.hiloHazard = .ignore) →
    canReadAll s [rs, rt] = true →
    decode (rWord rs rt rd sh 0x18) = .instr (.mult rs rt) ∧ decode (rWord rs rt rd sh 0x19) = .instr (.multu rs rt) ∧
    (∃ hi lo : Word, (hi ++ lo : BitVec 64).toInt = (s.reg rs).toInt * (s.reg rt).toInt ∧
      Completes (.mult rs rt) { hi := some hi, lo := some lo } s) ∧
    (∃ hi lo : Word, (hi ++ lo : BitVec 64).toNat = (s.reg rs).toNat * (s.reg rt).toNat ∧
      Completes (.multu rs rt) { hi := some hi, lo := some lo } s)

/-- 42_muldiv R231, R234, R235: DIV outside its corners (the dividend is quotient times divisor plus remainder, the remainder is smaller
than the divisor in magnitude and has the sign of the dividend) and DIVU by a divisor other than 0, with their encodings. -/
def Obligations.DivideResults : Prop :=
  ∀ (s : State) (rs rt rd : Reg) (sh : BitVec 5), (s.hiloAge = 0 ∨ s.cfg.hiloHazard = .ignore) →
    canReadAll s [rs, rt] = true →
    decode (rWord rs rt rd sh 0x1A) = .instr (.div rs rt) ∧ decode (rWord rs rt rd sh 0x1B) = .instr (.divu rs rt) ∧
    (s.reg rt ≠ 0 → ¬(s.reg rs = 0x80000000#32 ∧ s.reg rt = 0xFFFFFFFF#32) →
      ∃ hi lo : Word, (s.reg rs).toInt = lo.toInt * (s.reg rt).toInt + hi.toInt ∧
        hi.toInt.natAbs < (s.reg rt).toInt.natAbs ∧ (hi = 0 ∨ (hi.toInt < 0 ↔ (s.reg rs).toInt < 0)) ∧
        Completes (.div rs rt) { hi := some hi, lo := some lo } s) ∧
    (s.reg rt ≠ 0 → ∃ hi lo : Word, (s.reg rs).toNat = lo.toNat * (s.reg rt).toNat + hi.toNat ∧
      hi.toNat < (s.reg rt).toNat ∧ Completes (.divu rs rt) { hi := some hi, lo := some lo } s)

/-- 42_muldiv R241: the default DIV_CORNER table; and for any DIV_CORNER, that the instruction completes with hi and lo a function of
the signedness and the operands alone. -/
def Obligations.DivideCorners : Prop :=
  ∀ (s : State) (rs rt : Reg), (s.hiloAge = 0 ∨ s.cfg.hiloHazard = .ignore) → canReadAll s [rs, rt] = true →
    (s.cfg.divCorner = .chipTable →
      (s.reg rt = 0 → 0 ≤ (s.reg rs).toInt →
        Completes (.div rs rt) { hi := some (s.reg rs), lo := some 0xFFFFFFFF#32 } s) ∧
      (s.reg rt = 0 → (s.reg rs).toInt < 0 → Completes (.div rs rt) { hi := some (s.reg rs), lo := some 1#32 } s) ∧
      (s.reg rs = 0x80000000#32 → s.reg rt = 0xFFFFFFFF#32 →
        Completes (.div rs rt) { hi := some 0#32, lo := some 0x80000000#32 } s) ∧
      (s.reg rt = 0 → Completes (.divu rs rt) { hi := some (s.reg rs), lo := some 0xFFFFFFFF#32 } s)) ∧
    (∀ k, s.cfg.divCorner = .other k →
      (s.reg rt = 0 ∨ (s.reg rs = 0x80000000#32 ∧ s.reg rt = 0xFFFFFFFF#32) →
        Completes (.div rs rt)
          { hi := some (Config.divCornerOther k true (s.reg rs) (s.reg rt)).1,
            lo := some (Config.divCornerOther k true (s.reg rs) (s.reg rt)).2 } s) ∧
      (s.reg rt = 0 →
        Completes (.divu rs rt)
          { hi := some (Config.divCornerOther k false (s.reg rs) (s.reg rt)).1,
            lo := some (Config.divCornerOther k false (s.reg rs) (s.reg rt)).2 } s))

/-- 42_muldiv R236 to R239: MFHI and MFLO copy at once and set hilo_age to 2; MTHI and MTLO write one register and leave the other. -/
def Obligations.HiLoMoves : Prop :=
  ∀ (s : State) (rs rt rd : Reg) (sh : BitVec 5),
    decode (rWord rs rt rd sh 0x10) = .instr (.mfhi rd) ∧ decode (rWord rs rt rd sh 0x12) = .instr (.mflo rd) ∧
    decode (rWord rs rt rd sh 0x11) = .instr (.mthi rs) ∧ decode (rWord rs rt rd sh 0x13) = .instr (.mtlo rs) ∧
    (canReadHi s = true → Completes (.mfhi rd) { wr := some ⟨rd, s.hi⟩, readsHiLo := true } s) ∧
    (canReadLo s = true → Completes (.mflo rd) { wr := some ⟨rd, s.lo⟩, readsHiLo := true } s) ∧
    ((s.hiloAge = 0 ∨ s.cfg.hiloHazard = .ignore) → canReadAll s [rs] = true →
      Completes (.mthi rs) { hi := some (s.reg rs) } s ∧ Completes (.mtlo rs) { lo := some (s.reg rs) } s)

/-- 42_muldiv R244: with HILO_HAZARD = fault, an instruction that writes hi or lo while hilo_age is above 0 is the fault HiLoHazard;
with HILO_HAZARD = ignore it executes normally: as with hilo_age = 0, but for hilo_age itself. -/
def Obligations.HiLoHazardFaults : Prop :=
  ∀ (s : State) (rs rt : Reg),
    ∀ i ∈ [Instr.mult rs rt, .multu rs rt, .div rs rt, .divu rs rt, .mthi rs, .mtlo rs],
      (0 < s.hiloAge.val → s.cfg.hiloHazard = .fault → exec i s = .fault .hiLoHazard) ∧
      (s.cfg.hiloHazard = .ignore → canReadAll s [rs, rt] = true → ∃ t u, exec i s = .next t ∧ exec i { s with hiloAge := 0 } = .next u ∧
        t = { u with hiloAge := t.hiloAge })

/-! ## Branches and jumps (43_branch_jump) -/

/-- 43_branch_jump R252 to R254: J, JAL and JR, with their encodings: the scheduled target, the link value pc + 8 of JAL written at
once, the pc at the delay slot, and nothing else changes. -/
def Obligations.JumpResults : Prop :=
  ∀ (s : State) (target : BitVec 26) (rs rt rd : Reg) (sh : BitVec 5),
    let t26 := (s.pc + 4).extractLsb' 28 4 ++ target ++ 0#2
    decode (jWord 0x02 target) = .instr (.j target) ∧ decode (jWord 0x03 target) = .instr (.jal target) ∧
    decode (rWord rs rt rd sh 0x08) = .instr (.jr rs) ∧
    Completes (.j target) { br := some t26 } s ∧
    Completes (.jal target) { wr := some ⟨31, s.pc + 8⟩, br := some t26 } s ∧
    (canReadAll s [rs] = true → Completes (.jr rs) { br := some (s.reg rs) } s)

/-- 43_branch_jump R256 to R261: the conditional branches without a link, with their encodings: taken they schedule
pc + 4 + sext(imm16 || 00), not taken pc + 8; and nothing else changes. -/
def Obligations.ConditionalBranchResults : Prop :=
  ∀ (s : State) (rs rt : Reg) (imm : BitVec 16),
    let a := s.reg rs
    let t := s.pc + 4 + (imm ++ 0#2).signExtend 32
    decode (iWord 0x04 rs rt imm) = .instr (.beq rs rt imm) ∧ decode (iWord 0x05 rs rt imm) = .instr (.bne rs rt imm) ∧
    decode (iWord 0x06 rs rt imm) = .instr (.blez rs imm) ∧ decode (iWord 0x07 rs rt imm) = .instr (.bgtz rs imm) ∧
    decode (iWord 0x01 rs 0 imm) = .instr (.bltz rs imm) ∧ decode (iWord 0x01 rs 1 imm) = .instr (.bgez rs imm) ∧
    (canReadAll s [rs, rt] = true →
      (a = s.reg rt → Completes (.beq rs rt imm) { br := some t } s) ∧
      (a ≠ s.reg rt → Completes (.beq rs rt imm) { br := some (s.pc + 8) } s) ∧
      (a ≠ s.reg rt → Completes (.bne rs rt imm) { br := some t } s) ∧
      (a = s.reg rt → Completes (.bne rs rt imm) { br := some (s.pc + 8) } s)) ∧
    (canReadAll s [rs] = true →
      (a.toInt ≤ 0 → Completes (.blez rs imm) { br := some t } s) ∧
      (0 < a.toInt → Completes (.blez rs imm) { br := some (s.pc + 8) } s) ∧
      (0 < a.toInt → Completes (.bgtz rs imm) { br := some t } s) ∧
      (a.toInt ≤ 0 → Completes (.bgtz rs imm) { br := some (s.pc + 8) } s) ∧
      (a.toInt < 0 → Completes (.bltz rs imm) { br := some t } s) ∧
      (0 ≤ a.toInt → Completes (.bltz rs imm) { br := some (s.pc + 8) } s) ∧
      (0 ≤ a.toInt → Completes (.bgez rs imm) { br := some t } s) ∧
      (a.toInt < 0 → Completes (.bgez rs imm) { br := some (s.pc + 8) } s))

/-- 43_branch_jump R255, R262 to R264: JALR, BLTZAL and BGEZAL, with their encodings: JALR links into rd, the other two into x[31]
whether or not they are taken, and nothing else changes; JALR with rd = rs not 0, and BLTZAL and BGEZAL with rs = 31, end
the step with the fault LinkSameReg. -/
def Obligations.LinkingResults : Prop :=
  ∀ (s : State) (rd rs rt : Reg) (sh : BitVec 5) (imm : BitVec 16),
    let a := s.reg rs
    let t := s.pc + 4 + (imm ++ 0#2).signExtend 32
    let link : Option RegWrite := some ⟨31, s.pc + 8⟩
    decode (rWord rs rt rd sh 0x09) = .instr (.jalr rd rs) ∧
    decode (iWord 0x01 rs 0x10 imm) = .instr (.bltzal rs imm) ∧ decode (iWord 0x01 rs 0x11 imm) = .instr (.bgezal rs imm) ∧
    (rd ≠ rs ∨ rd = 0 → canReadAll s [rs] = true → Completes (.jalr rd rs) { wr := some ⟨rd, s.pc + 8⟩, br := some a } s) ∧
    (rd = rs → rd ≠ 0 → exec (.jalr rd rs) s = .fault .linkSameReg) ∧
    (rs = 31 → exec (.bltzal rs imm) s = .fault .linkSameReg ∧ exec (.bgezal rs imm) s = .fault .linkSameReg) ∧
    (rs ≠ 31 → canReadAll s [rs] = true →
      (a.toInt < 0 → Completes (.bltzal rs imm) { wr := link, br := some t } s) ∧
      (0 ≤ a.toInt → Completes (.bltzal rs imm) { wr := link, br := some (s.pc + 8) } s) ∧
      (0 ≤ a.toInt → Completes (.bgezal rs imm) { wr := link, br := some t } s) ∧
      (a.toInt < 0 → Completes (.bgezal rs imm) { wr := link, br := some (s.pc + 8) } s))

/-! ## Loads and stores (44_load_store) -/

/-- 44_load_store R284 to R288 for RAM, SPAD and BIOS: LB, LBU, LH, LHU and LW at an address that passes CheckAddr with the cache not
isolated: the value goes to the load slot, extended as the instruction says, and nothing else changes but the bus counts. -/
def Obligations.LoadResults : Prop :=
  ∀ (s : State) (rt base : Reg) (off : BitVec 16) (h : Handler) (a : Nat),
    let ea := s.reg base + off.signExtend 32
    let m := readByte s.mem
    canReadAll s [base] = true → memoryAt s.cfg ea = some (h, a) → srIsC s = false → (srKUc s = true → ea.getLsbD 31 = false) →
    ∀ row ∈ ([(.lb rt base off, 1, (m a).signExtend 32), (.lbu rt base off, 1, (m a).setWidth 32),
        (.lh rt base off, 2, (m (a + 1) ++ m a).signExtend 32), (.lhu rt base off, 2, (m (a + 1) ++ m a).setWidth 32),
        (.lw rt base off, 4, wordAt s.mem a)] : List (Instr × Nat × Word)),
      ea.toNat % row.2.1 = 0 →
      ∃ t, exec row.1 s = .next t ∧ Retired { ld := some ⟨rt, row.2.2⟩ } s t ∧ LoadFrame h s t

/-- 44_load_store R289 to R292 for RAM, SPAD and BIOS: LWL and LWR merge the aligned word with the register's value, or with the value
still pending for that register; no alignment is asked. -/
def Obligations.UnalignedLoadResults : Prop :=
  ∀ (s : State) (rt base : Reg) (off : BitVec 16) (h : Handler) (a : Nat),
    let ea := s.reg base + off.signExtend 32
    let w := wordAt s.mem a
    let cur := if names s.ld rt then (s.ld.map (·.val)).getD 0 else s.reg rt
    let k := ea.toNat % 4
    canReadAll s [base] = true → (names s.ld rt = true ∨ canReadAll s [rt] = true) →
    memoryAt s.cfg (ea &&& 0xFFFFFFFC#32) = some (h, a) → srIsC s = false → (srKUc s = true → ea.getLsbD 31 = false) →
    (∃ t v, exec (.lwl rt base off) s = .next t ∧ Retired { ld := some ⟨rt, v⟩ } s t ∧ LoadFrame h s t ∧
      (k = 0 → v = ((cur &&& 0x00FFFFFF#32) ||| (w <<< 24))) ∧ (k = 1 → v = ((cur &&& 0x0000FFFF#32) ||| (w <<< 16))) ∧
      (k = 2 → v = ((cur &&& 0x000000FF#32) ||| (w <<< 8))) ∧ (k = 3 → v = w)) ∧
    (∃ t v, exec (.lwr rt base off) s = .next t ∧ Retired { ld := some ⟨rt, v⟩ } s t ∧ LoadFrame h s t ∧
      (k = 0 → v = w) ∧ (k = 1 → v = ((cur &&& 0xFF000000#32) ||| (w >>> 8))) ∧
      (k = 2 → v = ((cur &&& 0xFFFF0000#32) ||| (w >>> 16))) ∧ (k = 3 → v = ((cur &&& 0xFFFFFF00#32) ||| (w >>> 24))))

/-- 44_load_store R293 to R295 for RAM, SPAD and BIOS (whose writes are ignored, 20_memory R103): SB, SH and SW store the low bytes of
x[rt] little-endian at the cell of the effective address, and no other byte and nothing else changes but the bus counts. -/
def Obligations.StoreResults : Prop :=
  ∀ (s : State) (rt base : Reg) (off : BitVec 16) (h : Handler) (a : Nat),
    let ea := s.reg base + off.signExtend 32
    canReadAll s [base, rt] = true →
    memoryAt s.cfg ea = some (h, a) → srIsC s = false → (srKUc s = true → ea.getLsbD 31 = false) →
    ∀ row ∈ ([(.sb rt base off, 1), (.sh rt base off, 2), (.sw rt base off, 4)] : List (Instr × Nat)),
      ea.toNat % row.2 = 0 →
      ∃ t, exec row.1 s = .next t ∧ Retired {} s t ∧ StoreFrame h 1 s t ∧
        ∀ x, readByte t.mem x = byteAfterStore h s.mem a row.2 (s.reg rt) x

/-- 44_load_store R296 to R299 for RAM, SPAD and BIOS (whose writes are ignored, 20_memory R103): SWL and SWR leave the aligned word at
cell `a` merged as the tables say, one word write when all four bytes are written and one byte write for each byte
otherwise; no byte outside that word changes. -/
def Obligations.UnalignedStoreResults : Prop :=
  ∀ (s : State) (rt base : Reg) (off : BitVec 16) (h : Handler) (a : Nat),
    let ea := s.reg base + off.signExtend 32
    let m := wordAt s.mem a
    let r := s.reg rt
    let k := ea.toNat % 4
    let becomes := fun (t : State) (v : Word) => wordAt t.mem a = if h = .bios then m else v
    canReadAll s [base, rt] = true →
    memoryAt s.cfg (ea &&& 0xFFFFFFFC#32) = some (h, a) → srIsC s = false → (srKUc s = true → ea.getLsbD 31 = false) →
    (∃ t, exec (.swl rt base off) s = .next t ∧ Retired {} s t ∧ StoreFrame h (if k = 3 then 1 else k + 1) s t ∧
      (∀ x, x < a ∨ a + 4 ≤ x → readByte t.mem x = readByte s.mem x) ∧
      (k = 0 → becomes t ((m &&& 0xFFFFFF00#32) ||| (r >>> 24))) ∧
      (k = 1 → becomes t ((m &&& 0xFFFF0000#32) ||| (r >>> 16))) ∧
      (k = 2 → becomes t ((m &&& 0xFF000000#32) ||| (r >>> 8))) ∧ (k = 3 → becomes t r)) ∧
    (∃ t, exec (.swr rt base off) s = .next t ∧ Retired {} s t ∧ StoreFrame h (if k = 0 then 1 else 4 - k) s t ∧
      (∀ x, x < a ∨ a + 4 ≤ x → readByte t.mem x = readByte s.mem x) ∧
      (k = 0 → becomes t r) ∧ (k = 1 → becomes t ((m &&& 0x000000FF#32) ||| (r <<< 8))) ∧
      (k = 2 → becomes t ((m &&& 0x0000FFFF#32) ||| (r <<< 16))) ∧
      (k = 3 → becomes t ((m &&& 0x00FFFFFF#32) ||| (r <<< 24))))

/-- 44_load_store R280, R284 to R291, R293 to R299: at any address, RAM or device, that passes CheckAddr with the cache not isolated: the
instruction makes its bus access, a fault of the access ends the step, and otherwise it retires in the state the access
left, with the value read extended or merged into the load slot. Of SWL and SWR, the word write, and the first byte write. -/
def Obligations.AccessesThroughTheBus : Prop :=
  ∀ (s : State) (rt base : Reg) (off : BitVec 16),
    let ea := s.reg base + off.signExtend 32
    let al := ea &&& 0xFFFFFFFC#32
    let r := s.reg rt
    let k := ea.toNat % 4
    let cur := if names s.ld rt then (s.ld.map (·.val)).getD 0 else r
    let lwl := fun w : Word => if k = 0 then (cur &&& 0x00FFFFFF#32) ||| (w <<< 24)
      else if k = 1 then (cur &&& 0x0000FFFF#32) ||| (w <<< 16) else if k = 2 then (cur &&& 0x000000FF#32) ||| (w <<< 8) else w
    let lwr := fun w : Word => if k = 0 then w else if k = 1 then (cur &&& 0xFF000000#32) ||| (w >>> 8)
      else if k = 2 then (cur &&& 0xFFFF0000#32) ||| (w >>> 16) else (cur &&& 0xFFFFFF00#32) ||| (w >>> 24)
    canReadAll s [base] = true → srIsC s = false → (srKUc s = true → ea.getLsbD 31 = false) →
    (∀ row ∈ ([(.lb rt base off, .b8, fun v => (v.setWidth 8).signExtend 32), (.lbu rt base off, .b8, fun v => (v.setWidth 8).setWidth 32),
        (.lh rt base off, .b16, fun v => (v.setWidth 16).signExtend 32), (.lhu rt base off, .b16, fun v => (v.setWidth 16).setWidth 32),
        (.lw rt base off, .b32, fun v => v)] : List (Instr × Width × (Word → Word))),
      ea.toNat % widthBytes row.2.1 = 0 →
      (∀ e, memRead ea row.2.1 s = .error e → exec row.1 s = .fault e) ∧
      (∀ v s', memRead ea row.2.1 s = .ok (v, s') →
        ∃ t, exec row.1 s = .next t ∧ Retired { ld := some ⟨rt, row.2.2 v⟩ } s' t ∧ CpuFrame s' t)) ∧
    (∀ row ∈ ([(.lwl rt base off, lwl), (.lwr rt base off, lwr)] : List (Instr × (Word → Word))),
      (∀ e, memRead al .b32 s = .error e → exec row.1 s = .fault e) ∧
      (∀ v s', memRead al .b32 s = .ok (v, s') → (names s.ld rt = true ∨ canReadAll s [rt] = true) →
        ∃ t, exec row.1 s = .next t ∧ Retired { ld := some ⟨rt, row.2 v⟩ } s' t ∧ CpuFrame s' t)) ∧
    (canReadAll s [rt] = true →
      (∀ row ∈ ([(.sb rt base off, .b8, (r.setWidth 8).setWidth 32), (.sh rt base off, .b16, (r.setWidth 16).setWidth 32),
          (.sw rt base off, .b32, r)] : List (Instr × Width × Word)),
        ea.toNat % widthBytes row.2.1 = 0 →
        (∀ e, memWrite ea row.2.1 row.2.2 s = .error e → exec row.1 s = .fault e) ∧
        (∀ s', memWrite ea row.2.1 row.2.2 s = .ok s' → ∃ t, exec row.1 s = .next t ∧ Retired {} s' t ∧ CpuFrame s' t)) ∧
      (∀ row ∈ ([(.swl rt base off, 3), (.swr rt base off, 0)] : List (Instr × Nat)),
        k = row.2 →
        (∀ e, memWrite al .b32 r s = .error e → exec row.1 s = .fault e) ∧
        (∀ s', memWrite al .b32 r s = .ok s' → ∃ t, exec row.1 s = .next t ∧ Retired {} s' t ∧ CpuFrame s' t)) ∧
      (∀ e, k ≠ 3 →
        memWrite al .b8 ((r.extractLsb' (8 * (3 - k)) 8).setWidth 32) s = .error e → exec (.swl rt base off) s = .fault e) ∧
      (∀ e, k ≠ 0 →
        memWrite ea .b8 ((r.setWidth 8).setWidth 32) s = .error e → exec (.swr rt base off) s = .fault e))

/-- 44_load_store R281, R283; 20_memory R82: a misaligned halfword or word access, or in user mode an address with bit 31 set, raises
AdEL (loads) or AdES (stores) with BADVADDR the address, before any bus access: no byte and no slot is written by it. -/
def Obligations.DataAddressErrors : Prop :=
  ∀ (s : State) (rt base : Reg) (off : BitVec 16),
    let ea := s.reg base + off.signExtend 32
    nestOk s = true → canReadAll s [base] = true →
    ∀ row ∈ ([(.lb rt base off, 1, false), (.lbu rt base off, 1, false), (.lh rt base off, 2, false),
        (.lhu rt base off, 2, false), (.lw rt base off, 4, false), (.lwl rt base off, 1, false), (.lwr rt base off, 1, false),
        (.sb rt base off, 1, true), (.sh rt base off, 2, true), (.sw rt base off, 4, true), (.swl rt base off, 1, true),
        (.swr rt base off, 1, true)] : List (Instr × Nat × Bool)),
      (ea.toNat % row.2.1 ≠ 0 ∨ (s.sr.getLsbD 1 = true ∧ ea.getLsbD 31 = true)) →
      Takes (if row.2.2 then .adES ea else .adEL ea) (if row.2.2 then 5 else 4) row.1 s

/-- 44_load_store R282, 45_cop_system R320: with SR.IsC = 1 an access that passes CheckAddr makes no bus access: a store completes and
writes nothing, a load is refused. -/
def Obligations.CacheIsolation : Prop :=
  ∀ (s : State) (rt base : Reg) (off : BitVec 16),
    let ea := s.reg base + off.signExtend 32
    canReadAll s [base] = true → s.sr.getLsbD 16 = true → (s.sr.getLsbD 1 = true → ea.getLsbD 31 = false) →
    (∀ row ∈ ([(.lb rt base off, 1), (.lbu rt base off, 1), (.lh rt base off, 2), (.lhu rt base off, 2), (.lw rt base off, 4),
        (.lwl rt base off, 1), (.lwr rt base off, 1)] : List (Instr × Nat)),
      ea.toNat % row.2 = 0 → exec row.1 s = .refused .refuseIsolatedLoad) ∧
    (∀ row ∈ ([(.sb rt base off, 1), (.sh rt base off, 2), (.sw rt base off, 4), (.swl rt base off, 1),
        (.swr rt base off, 1)] : List (Instr × Nat)),
      ea.toNat % row.2 = 0 → Completes row.1 {} s)

/-! ## The bus (20_memory) -/

/-- 20_memory R80, R81, R89, R102, R103: what the three segments reach: RAM and its mirrors at the low 21 bits, the scratchpad through
KUSEG and KSEG0, the BIOS through all three; and the scratchpad is not reachable through KSEG1 when no external window is
registered. -/
def Obligations.MemoryMap : Prop :=
  ∀ (cfg : Params) (x : Word),
    (x.toNat < 0x00800000 → ∀ seg ∈ [0x00000000#32, 0x80000000#32, 0xA0000000#32],
      memoryAt cfg (x + seg) = some (.ram, x.toNat % 0x00200000)) ∧
    (x.toNat < 0x400 → ∀ base ∈ [0x1F800000#32, 0x9F800000#32], memoryAt cfg (x + base) = some (.spad, 0x1F800000 + x.toNat)) ∧
    (x.toNat < 0x80000 → ∀ base ∈ [0x1FC00000#32, 0x9FC00000#32, 0xBFC00000#32],
      memoryAt cfg (x + base) = some (.bios, 0x1FC00000 + x.toNat)) ∧
    (x.toNat < 0x400 → cfg.external = [] →
      lookup cfg (physAddr (x + 0xBF800000#32)).toNat (segmentOf (x + 0xBF800000#32)) = none)

/-- 20_memory R99, R100: an unmapped access: the open-bus value of the width and a dropped write under the lenient policy, the fault
BusFault with the physical address, the bytes and the direction under the strict one. -/
def Obligations.UnmappedAccess : Prop :=
  ∀ (s : State) (x v : Word), lookup s.cfg (physAddr x).toNat (segmentOf x) = none →
    (s.cfg.busPolicy = .lenient →
      memRead x .b8 s = .ok ((s.cfg.openBusValue.setWidth 8).setWidth 32, s) ∧
      memRead x .b16 s = .ok ((s.cfg.openBusValue.setWidth 16).setWidth 32, s) ∧
      memRead x .b32 s = .ok (s.cfg.openBusValue, s) ∧ ∀ w, memWrite x w v s = .ok s) ∧
    (s.cfg.busPolicy = .strict →
      ∀ p ∈ [(Width.b8, 1), (.b16, 2), (.b32, 4)],
        memRead x p.1 s = .error (.busFault (physAddr x) p.2 .read) ∧
        memWrite x p.1 v s = .error (.busFault (physAddr x) p.2 .write))

/-- 20_memory R101, R104 and 60_exceptions R374, R375: 32-bit and 16-bit reads and writes of I_STAT and I_MASK through KUSEG, KSEG0 and
KSEG1; an 8-bit access faults. That it does so at each of the eight bytes is deduced (log 28). -/
def Obligations.InterruptRegisters : Prop :=
  ∀ (s : State) (v : Word), ∀ seg ∈ [0x00000000#32, 0x80000000#32, 0xA0000000#32],
    let stat := 0x1F801070#32 + seg
    let mask := 0x1F801074#32 + seg
    let call := fun t : State => { t with cycles := s.cycles + latencyOf .irq, busCalls := s.busCalls + 1 }
    let acked := fun x : BitVec 11 => match s.cfg.ackPolarity with
      | .write1Clears => s.iStat &&& ~~~x
      | .write0Clears => s.iStat &&& x
    memRead stat .b32 s = .ok (s.iStat.setWidth 32, call s) ∧ memRead mask .b32 s = .ok (s.iMask.setWidth 32, call s) ∧
    memRead stat .b16 s = .ok (s.iStat.setWidth 32, call s) ∧ memRead mask .b16 s = .ok (s.iMask.setWidth 32, call s) ∧
    memRead (stat + 2) .b16 s = .ok (0, call s) ∧ memRead (mask + 2) .b16 s = .ok (0, call s) ∧
    memWrite stat .b32 v s = .ok (call { s with iStat := acked (v.setWidth 11) }) ∧
    memWrite stat .b16 v s = .ok (call { s with iStat := acked (v.setWidth 11) }) ∧
    memWrite mask .b32 v s = .ok (call { s with iMask := v.setWidth 11 }) ∧
    memWrite mask .b16 v s = .ok (call { s with iMask := v.setWidth 11 }) ∧
    memWrite (stat + 2) .b16 v s = .ok (call s) ∧ memWrite (mask + 2) .b16 v s = .ok (call s) ∧
    (∀ k ∈ [0#32, 1#32, 2#32, 3#32, 4#32, 5#32, 6#32, 7#32],
      memRead (stat + k) .b8 s = .error .mmioWidth ∧ memWrite (stat + k) .b8 v s = .error .mmioWidth)

/-- 20_memory R91, R92, R104; 65_dma R408: the DMA window and CACHECTL: a 32-bit read of a DMA register returns it and has no effect but
the bus counts, a narrow access anywhere in a register's word faults, an access of any width to a hole is unmapped, and
CACHECTL stores and returns 32 bits. That a narrow access to a hole is unmapped, and not MmioWidth, and that a narrow access
anywhere in a register's word is MmioWidth, is deduced (log 28). -/
def Obligations.DmaWindowAndCacheControl : Prop :=
  ∀ (s : State) (n : Chan) (v : Word), ∀ seg ∈ [0x00000000#32, 0x80000000#32, 0xA0000000#32],
    let chan := 0x1F801080#32 + BitVec.ofNat 32 (16 * n.val) + seg
    let dpcr := 0x1F8010F0#32 + seg
    let dicr := 0x1F8010F4#32 + seg
    let call := fun (h : Handler) (t : State) => { t with cycles := s.cycles + latencyOf h, busCalls := s.busCalls + 1 }
    let narrow := ([(0#32, .b16), (2#32, .b16), (0#32, .b8), (1#32, .b8), (2#32, .b8), (3#32, .b8)] : List (Word × Width))
    let open' := fun w : Width => match w with
      | .b8 => (s.cfg.openBusValue.setWidth 8).setWidth 32
      | .b16 => (s.cfg.openBusValue.setWidth 16).setWidth 32
      | .b32 => s.cfg.openBusValue
    memRead chan .b32 s = .ok ((s.chan n).madr.setWidth 32, call .dma s) ∧
    memRead (chan + 4) .b32 s = .ok ((s.chan n).bcr, call .dma s) ∧
    memRead (chan + 8) .b32 s = .ok ((s.chan n).chcr, call .dma s) ∧
    memRead dpcr .b32 s = .ok (s.dpcr, call .dma s) ∧ memRead dicr .b32 s = .ok (s.dicr.word, call .dma s) ∧
    (∀ x ∈ [chan, chan + 4, chan + 8, dpcr, dicr, 0xFFFE0130#32], ∀ k ∈ narrow,
      memRead (x + k.1) k.2 s = .error .mmioWidth ∧ memWrite (x + k.1) k.2 v s = .error .mmioWidth) ∧
    (∀ x ∈ [chan + 12, dicr + 4, dicr + 8], ∀ k ∈ (0#32, .b32) :: narrow,
      (s.cfg.busPolicy = .lenient → memRead (x + k.1) k.2 s = .ok (open' k.2, s) ∧ memWrite (x + k.1) k.2 v s = .ok s) ∧
      (s.cfg.busPolicy = .strict →
        memRead (x + k.1) k.2 s = .error (.busFault ((x + k.1) &&& 0x1FFFFFFF#32) (widthBytes k.2) .read) ∧
        memWrite (x + k.1) k.2 v s = .error (.busFault ((x + k.1) &&& 0x1FFFFFFF#32) (widthBytes k.2) .write))) ∧
    memRead 0xFFFE0130#32 .b32 s = .ok (s.cacheCtl, call .cacheCtl s) ∧
    memWrite 0xFFFE0130#32 .b32 v s = .ok (call .cacheCtl { s with cacheCtl := v })

/-- 20_memory R94, R96, R97: an external window answers a read of any width with a free value of that width (its number is the count of
values drawn so far) and takes a write of any width; each access is an event delivered to the device, and nothing else in this
block changes but the bus counts. That a narrow read is the low bits of one free value is log 35. -/
def Obligations.ExternalWindowAccess : Prop :=
  ∀ (s : State) (x v : Word) (win : Window) (segs : List Segment) (base size : Nat),
    lookup s.cfg (physAddr x).toNat (segmentOf x) = some ⟨base, size, .external win, segs⟩ →
    let free := Config.freeWord s.draws
    ∀ row ∈ ([(.b8, (free.setWidth 8).setWidth 32, (v.setWidth 8).setWidth 32),
        (.b16, (free.setWidth 16).setWidth 32, (v.setWidth 16).setWidth 32), (.b32, free, v)] : List (Width × Word × Word)),
      memRead x row.1 s = .ok (row.2.1,
        { s with draws := s.draws + 1, cycles := s.cycles + win.latency, busCalls := s.busCalls + 1,
                 emitted := s.emitted ++ [.busRead win.id ((physAddr x).toNat - base) row.1] }) ∧
      memWrite x row.1 v s = .ok
        { s with cycles := s.cycles + win.latency, busCalls := s.busCalls + 1,
                 emitted := s.emitted ++ [.busWrite win.id ((physAddr x).toNat - base) row.1 row.2.2] }

/-! ## Coprocessor and system instructions (45_cop_system) -/

/-- 45_cop_system R311, R312; 10_state R38, R44: MFC0 of BADVADDR, SR, CAUSE, EPC and PRId when COP0 is usable: the value goes through the
load slot. CAUSE reads its stored fields with IP[2] live and the other bits 0. -/
def Obligations.MoveFromCop0Results : Prop :=
  ∀ (s : State) (rt rd : Reg), (s.sr.getLsbD 1 = false ∨ s.sr.getLsbD 28 = true) →
    decode (cop0MoveWord 0x00 rt rd) = .instr (.mfc0 rt rd) ∧
    (∀ row ∈ ([(8, s.badVAddr), (12, s.sr), (14, s.epc), (15, 0x00000002#32),
        (13, BitVec.ofBool s.cause.bd ++ 0#1 ++ s.cause.ce ++ 0#12 ++ 0#5 ++ BitVec.ofBool (s.iStat &&& s.iMask != 0) ++
          s.cause.ip ++ 0#1 ++ s.cause.excCode ++ 0#2)] : List (Reg × Word)),
      Completes (.mfc0 rt row.1) { ld := some ⟨rt, row.2⟩ } s) ∧
    (∀ r ∈ ([3, 5, 6, 7, 9, 11] : List Reg), exec (.mfc0 rt r) s = .refused .refuseDebug) ∧
    (∀ r ∈ ([0, 1, 2, 4, 10] : List Reg), exec (.mfc0 rt r) s = .refused .refuseCop0Reg) ∧
    (∀ r : Reg, 16 ≤ r.toNat → exec (.mfc0 rt r) s = .refused .refuseCop0Reg)

/-- 45_cop_system R313, R314, R318; 10_state R37, R39, R44: MTC0 when COP0 is usable: which register each number writes, what it leaves,
which writes are ignored and which are refused. -/
def Obligations.MoveToCop0Results : Prop :=
  ∀ (s : State) (rt rd : Reg), (s.sr.getLsbD 1 = false ∨ s.sr.getLsbD 28 = true) → canReadAll s [rt] = true →
    let v := s.reg rt
    decode (cop0MoveWord 0x04 rt rd) = .instr (.mtc0 rt rd) ∧
    (∀ row ∈ ([(12, { s with sr := v }), (13, { s with cause := { s.cause with ip := v.extractLsb' 8 2 } }),
        (8, s), (14, s), (15, s), (6, s), (3, { s with bpc := v }), (5, { s with bda := v }), (9, { s with bdam := v }),
        (11, { s with bpcm := v })] : List (Reg × State)),
      ∃ t, exec (.mtc0 rt row.1) s = .next t ∧ Retired {} s t ∧ CpuFrame row.2 t) ∧
    (v = 0 → ∃ t, exec (.mtc0 rt 7) s = .next t ∧ Retired {} s t ∧ CpuFrame { s with dcic := 0 } t) ∧
    (v ≠ 0 → exec (.mtc0 rt 7) s = .refused .refuseDebug) ∧
    (∀ r ∈ ([0, 1, 2, 4, 10] : List Reg), exec (.mtc0 rt r) s = .refused .refuseCop0Reg) ∧
    (∀ r : Reg, 16 ≤ r.toNat → exec (.mtc0 rt r) s = .refused .refuseCop0Reg)

/-- 45_cop_system R316: RFE, with every word of its encoding: when COP0 is usable it pops the mode stack (SR[3:0] becomes SR[5:2],
SR[5:4] and the rest of SR stay) and closes one exception entry; the pc and the branch slot go on as after any
instruction of class Other. When COP0 is unusable (user mode, CU0 = 0) it raises CpU with CE = 0. -/
def Obligations.ReturnFromExceptionResult : Prop :=
  (∀ x : BitVec 19, decode (0x10#6 ++ 1#1 ++ x ++ 0x10#6) = .instr .rfe) ∧ isBranch .rfe = false ∧
  ∀ s : State,
    ((s.sr.getLsbD 1 = false ∨ s.sr.getLsbD 28 = true) →
      ∃ t, exec .rfe s = .next t ∧ Retired {} s t ∧
        t.sr.extractLsb' 0 4 = s.sr.extractLsb' 2 4 ∧ t.sr.extractLsb' 4 28 = s.sr.extractLsb' 4 28 ∧
        t.excDepth.val = s.excDepth.val - 1 ∧ CpuFrame { s with sr := t.sr, excDepth := t.excDepth } t) ∧
    (s.sr.getLsbD 1 = true → s.sr.getLsbD 28 = false → nestOk s = true → Takes (.cpU 0) 11 .rfe s)

/-- 45_cop_system R310, R322, R323: an instruction of an unusable coprocessor raises CpU with CE its number; of a usable one, COP1 to COP3,
LWCz and SWCz are refused before any bus access. The spec gives COP1 to COP3, LWCz and SWCz no effect but this entry (log 36). -/
def Obligations.CoprocessorUsability : Prop :=
  ∀ (s : State) (rt rd base : Reg) (off : BitVec 16) (f : BitVec 26),
    let usable := fun z : BitVec 2 => (z = 0 ∧ s.sr.getLsbD 1 = false) ∨ s.sr.getLsbD (28 + z.toNat) = true
    (∀ row ∈ ([(.mfc0 rt rd, 0), (.mtc0 rt rd, 0), (.rfe, 0), (.lwc0 rt base off, 0), (.swc0 rt base off, 0), (.cop1 f, 1),
        (.lwc1 rt base off, 1), (.swc1 rt base off, 1), (.cop2 f, 2), (.lwc2 rt base off, 2), (.swc2 rt base off, 2), (.cop3 f, 3),
        (.lwc3 rt base off, 3), (.swc3 rt base off, 3)] : List (Instr × BitVec 2)),
      ¬usable row.2 → nestOk s = true → Takes (.cpU row.2) 11 row.1 s) ∧
    (∀ row ∈ ([(.lwc0 rt base off, 0), (.swc0 rt base off, 0), (.cop1 f, 1), (.lwc1 rt base off, 1), (.swc1 rt base off, 1),
        (.cop2 f, 2), (.lwc2 rt base off, 2), (.swc2 rt base off, 2), (.cop3 f, 3), (.lwc3 rt base off, 3),
        (.swc3 rt base off, 3)] : List (Instr × BitVec 2)),
      usable row.2 → exec row.1 s = .refused .refuseCopz)

/-- 45_cop_system R324, R325: SYSCALL raises Sys and BREAK raises Bp, in either mode and whatever the code field holds. -/
def Obligations.SystemInstructions : Prop :=
  ∀ (s : State) (code : BitVec 20), nestOk s = true →
    decode (codeWord code 0x0C) = .instr (.syscall code) ∧ decode (codeWord code 0x0D) = .instr (.brk code) ∧
    Takes .sys 8 (.syscall code) s ∧ Takes .bp 9 (.brk code) s

/-! ## Exceptions and interrupts (60_exceptions) -/

/-- 60_exceptions R340, R350 to R355: the unified entry path: for every exception, its code, EPC and BD, CE for CpU, BADVADDR for address
errors only, the push of the mode stack, the vector, the commit of the pending load; and what it leaves alone. -/
def Obligations.ExceptionEntry : Prop :=
  ∀ (s : State) (x : Exc), nestOk s = true →
    ∃ t, enterException x s = .next t ∧
      Entered x (match x with
        | .int => 0 | .adEL _ => 4 | .adES _ => 5 | .sys => 8 | .bp => 9 | .ri => 10 | .cpU _ => 11 | .ov => 12) s t

/-- 60_exceptions R356: with fewer than two entries open the nesting check lets the entry proceed; a third is the fault NestOverflow
with NEST_OVERFLOW = fault, and enters with the depth kept at 2 with NEST_OVERFLOW = discard_oldest, so that the old pair is
lost: SR[5:4] becomes the previous pair. -/
def Obligations.NestedEntryBeyondTwo : Prop :=
  ∀ (s : State) (x : Exc),
    (s.excDepth.val < 2 → ∃ t, enterException x s = .next t ∧ t.excDepth.val = s.excDepth.val + 1) ∧
    (s.excDepth = 2 → s.cfg.nestPolicy = .fault → enterException x s = .fault .nestOverflow) ∧
    (s.excDepth = 2 → s.cfg.nestPolicy = .discardOldest → ∃ t, enterException x s = .next t ∧ t.excDepth = 2 ∧
      t.sr.extractLsb' 4 2 = s.sr.extractLsb' 2 2)

/-- 60_exceptions R372, R378: raise sets the line's bit whatever I_MASK holds and changes nothing else; any number of raises in any
order leave the old bits and the raised ones; with IEc and IM[2] set and nothing else requested, raising a masked line
produces no request, and setting its mask bit afterwards does. -/
def Obligations.RaisedLines : Prop :=
  ∀ (s : State) (l : Line) (ls : List Line) (v : Word),
    (∀ k : Line, (raiseLine l s).iStat.getLsbD k.val = (s.iStat.getLsbD k.val || decide (k = l))) ∧
    raiseLine l s = { s with iStat := (raiseLine l s).iStat } ∧
    (∀ k : Line, (ls.foldr raiseLine s).iStat.getLsbD k.val = (s.iStat.getLsbD k.val || decide (k ∈ ls))) ∧
    (s.sr.getLsbD 0 = true → s.sr.getLsbD 10 = true → s.iStat &&& s.iMask = 0 →
      s.cause.ip &&& s.sr.extractLsb' 8 2 = 0 → s.iMask.getLsbD l.val = false → v.getLsbD l.val = true →
      irqRequest (raiseLine l s) = false ∧ irqRequest (setIMask v (raiseLine l s)) = true)

/-- 40_cpu_step R150, R151; 60_exceptions R372; 65_dma R402, R418; 00_scope R12: what a transition is, by the agenda (the model's own
field, log 1, 2). A device event changes its own bit, also between two owed DMA units; an owed unit, and a DMA turn under the
free schedule, is one unit of the arbiter's channel; a DMA turn that is no transition does nothing; and with nothing owed a
host entry is done as its rule says. -/
def Obligations.AgendaTurns : Prop :=
  ∀ (s : State) (l : Line) (n : Chan) (b : Bool) (x v : Word) (w : Width) (r : HostReg) (saved : Snapshot) (rest : List Turn),
    let after := { s with agenda := rest, dmaOwed := false }
    let eager := s.cfg.schedule == .eager
    configOk s = true →
    (s.agenda = .raise l :: rest →
      step s = .next { s with iStat := (raiseLine l s).iStat, agenda := rest, dmaOwed := catchingUp s }) ∧
    (s.agenda = .setReady n b :: rest →
      ∃ t, step s = .next t ∧ t = { s with dmaReady := t.dmaReady, agenda := rest, dmaOwed := catchingUp s } ∧
        t.dmaReady.get n = b ∧ ∀ m, m ≠ n → t.dmaReady.get m = s.dmaReady.get m) ∧
    (s.faults = [] → s.refused = false → nextChan s = some n → s.dmaOwed = true →
      (nextTurn s ∈ [.cpu, .hostReset, .poke x w v, .pokeReg r v, .restore saved] →
        step s = .next { dmaUnit n s with dmaOwed := eager }) ∧
      (s.agenda = .dma :: rest → step s = .next { dmaUnit n s with agenda := rest, dmaOwed := eager })) ∧
    (s.faults = [] → s.refused = false → s.dmaOwed = false → s.agenda = .dma :: rest →
      (eager = true ∨ nextChan s = none → step s = .next after) ∧
      (eager = false → nextChan s = some n → step s = .next (dmaUnit n after))) ∧
    (catchingUp s = false →
      (s.agenda = .hostReset :: rest → step s = .next (hostReset after)) ∧
      (s.agenda = .poke x w v :: rest → step s = .next (introspectWrite x w v after)) ∧
      (s.agenda = .pokeReg r v :: rest → step s = .next (pokeReg r v after)) ∧
      (s.agenda = .restore saved :: rest → step s = restore saved after))

/-- 40_cpu_step R151, by the default order of the schedules (log 2): every run without end is weakly fair to the DMA
engine, and under DMA_SCHEDULE = free fair to the CPU. (Under the eager schedule a catch-up that never ends keeps the CPU waiting: 65_dma R424.) -/
def Obligations.RunsAreFair : Prop :=
  ∀ r : Nat → State, Run r → DmaFair r ∧ ((r 0).cfg.schedule = .free → CpuFair r)

/-- 40_cpu_step R150: the host entry step() with nothing on the agenda and nothing owed: it stops as the CPU step stops; otherwise,
under the free schedule, it is that CPU step, and under the eager one that step and as many DMA units as it takes until no channel
is serviceable; and it returns the cycles that have passed. It answers whenever the units needed are at most `fuel`, and `none`
exactly when more are. -/
def Obligations.HostStepIsTransitions : Prop :=
  ∀ (fuel : Nat) (s : State), Inv s → s.agenda = [] → s.dmaOwed = false →
    (∀ f, hostStep fuel s = some (.fault f) ↔ step s = .fault f) ∧
    (∀ r, hostStep fuel s = some (.refused r) ↔ step s = .refused r) ∧
    (∀ t, s.cfg.schedule = .free → step s = .next t →
      hostStep fuel s = some (.next ({ t with dmaOwed := false }, t.cycles - s.cycles))) ∧
    (∀ k t, s.cfg.schedule = .eager → k ≤ fuel → stepN (k + 1) s = .next t → dmaEnabled t = false →
      (∀ j, j < k → ∃ u, stepN (j + 1) s = .next u ∧ dmaEnabled u = true) →
      hostStep fuel s = some (.next ({ t with dmaOwed := false }, t.cycles - s.cycles))) ∧
    (hostStep fuel s = none ↔ s.cfg.schedule = .eager ∧
      ∀ k, k ≤ fuel → ∃ t, stepN (k + 1) s = .next t ∧ dmaEnabled t = true) ∧
    (∀ u n, hostStep fuel s = some (.next (u, n)) →
      s.cycles + n = u.cycles ∧
      (s.cfg.schedule = .free → ∃ t, step s = .next t ∧ u = { t with dmaOwed := false }) ∧
      (s.cfg.schedule = .eager → dmaEnabled u = false ∧
        ∃ k t, k ≤ fuel ∧ stepN (k + 1) s = .next t ∧ u = { t with dmaOwed := false }))

/-- 20_memory R108: host introspection of memory (the BIOS image too), of the device registers and of the registers, at aligned
addresses: a read has no effect at all, a write sets what it names and nothing else, whatever the mode, the policies and
SR.IsC are, and adds no cycles; nothing begins, ends or raises. That START of CHCR stays, that FLAG of DICR is set as written, and
that a misaligned or unmapped address reads none and takes no write, are the model's choice (log 31); so is that a register
nothing has written reads its value whatever UNWRITTEN_REG_POLICY is (log 40). -/
def Obligations.Introspection : Prop :=
  ∀ (s : State) (x v : Word) (w : Width) (n : Chan) (q : Reg),
    let chan := 0x1F801080#32 + BitVec.ofNat 32 (16 * n.val)
    let c := s.chan n
    let t := introspectWrite x w v s
    (∀ h a, memoryAt s.cfg x = some (h, a) → x.toNat % widthBytes w = 0 →
      introspectRead x w s = some (match w with
        | .b8 => (readByte s.mem a).setWidth 32
        | .b16 => (readByte s.mem (a + 1) ++ readByte s.mem a).setWidth 32
        | .b32 => wordAt s.mem a) ∧
      t = { s with mem := t.mem } ∧
      ∀ y, readByte t.mem y = if a ≤ y ∧ y < a + widthBytes w then v.extractLsb' (8 * (y - a)) 8 else readByte s.mem y) ∧
    (lookup s.cfg (physAddr x).toNat (segmentOf x) = none ∨ x.toNat % widthBytes w ≠ 0 → introspectRead x w s = none ∧ t = s) ∧
    (∀ row ∈ ([(0x1F801070#32, s.iStat.setWidth 32, { s with iStat := v.setWidth 11 }),
        (0x1F801074#32, s.iMask.setWidth 32, { s with iMask := v.setWidth 11 }),
        (chan, c.madr.setWidth 32, setChan n { c with madr := v.setWidth 24 } s), (chan + 4, c.bcr, setChan n { c with bcr := v } s),
        (chan + 8, c.chcr, setChan n { c with chcr :=
          ((v &&& (if n = 6 then 0x50000000#32 else 0x70770703#32)) ||| (if n = 6 then 2#32 else 0#32)) |||
            (c.chcr &&& 0x01000000#32) } s),
        (0x1F8010F0#32, s.dpcr, { s with dpcr := v }),
        (0x1F8010F4#32, s.dicr.word, { s with dicr :=
          ⟨v.extractLsb' 0 6, v.getLsbD 15, v.extractLsb' 16 7, v.getLsbD 23, v.extractLsb' 24 7⟩ }),
        (0xFFFE0130#32, s.cacheCtl, { s with cacheCtl := v })] : List (Word × Word × State)),
      introspectRead row.1 .b32 s = some row.2.1 ∧ introspectWrite row.1 .b32 v s = row.2.2) ∧
    (∀ row ∈ ([(.hi, s.hi, { s with hi := v, hiWritten := true }), (.lo, s.lo, { s with lo := v, loWritten := true }),
        (.pc, s.pc, { s with pc := v }), (.cop0 3, s.bpc, { s with bpc := v }), (.cop0 5, s.bda, { s with bda := v }),
        (.cop0 7, s.dcic, { s with dcic := v }), (.cop0 8, s.badVAddr, { s with badVAddr := v }),
        (.cop0 9, s.bdam, { s with bdam := v }), (.cop0 11, s.bpcm, { s with bpcm := v }), (.cop0 12, s.sr, { s with sr := v }),
        (.cop0 13, causeWord s, { s with cause := ⟨v.extractLsb' 2 5, v.extractLsb' 8 2, v.extractLsb' 28 2, v.getLsbD 31⟩ }),
        (.cop0 14, s.epc, { s with epc := v }), (.cop0 15, 2#32, s)] : List (HostReg × Word × State)),
      peekReg row.1 s = some row.2.1 ∧ pokeReg row.1 v s = row.2.2) ∧
    (let u := pokeReg (.gpr q) v s
     peekReg (.gpr q) s = some (s.reg q) ∧ u = { s with gpr := u.gpr } ∧
      ∀ r : Reg, u.reg r = if r = 0 then 0 else if r = q then v else s.reg r)

/-! ## The DMA engine (65_dma) -/

/-- 65_dma R410, R430, R432, R434: a write of CHCR[n]: the bits kept, and the four outcomes: ModeChange, abort, the start of an active
period, or no more than the write. -/
def Obligations.ChannelControlWrite : Prop :=
  ∀ (s : State) (n : Chan) (v : Word),
    let old := s.chan n
    let new := (v &&& (if n = 6 then 0x51000000#32 else 0x71770703#32)) ||| (if n = 6 then 2#32 else 0#32)
    let changed := new.getLsbD 0 ≠ old.chcr.getLsbD 0 ∨ new.extractLsb' 9 2 ≠ old.chcr.extractLsb' 9 2
    let stopped := new &&& 0xEEFFFFFF#32
    let t := writeChcr n v s
    otherChans n s t ∧ t = { s with dma := t.dma } ∧
    (old.active = true → changed →
      t.chan n = { old with chcr := stopped, active := false, diag := old.diag ++ [⟨.modeChange, old.madr, stopped⟩] }) ∧
    (old.active = true → ¬changed → new.getLsbD 24 = false → t.chan n = { old with chcr := new, active := false }) ∧
    (old.active = true → ¬changed → new.getLsbD 24 = true → t.chan n = { old with chcr := new }) ∧
    (old.active = false → old.chcr.getLsbD 24 = false → new.getLsbD 24 = true →
      t.chan n = { old with chcr := new, active := true, wkLeft := (old.bcr.setWidth 16).setWidth 17 }) ∧
    (old.active = false → (old.chcr.getLsbD 24 = true ∨ new.getLsbD 24 = false) → t.chan n = { old with chcr := new })

/-- 65_dma R409, R411, R412; 10_state R50, R51, R54, R55; 20_memory R89: 32-bit CPU writes of MADR, BCR, CHCR and DPCR through KUSEG,
KSEG0 and KSEG1; and a write of DICR: FLAG bits are cleared by writing 1, the stored fields are set, and line 3 is raised exactly
when MFLAG rises; MFLAG is FORCE or (MIE and (IE & FLAG) is not 0). -/
def Obligations.DmaRegisterWrites : Prop :=
  ∀ (s : State) (n : Chan) (v : Word), ∀ seg ∈ [0x00000000#32, 0x80000000#32, 0xA0000000#32],
    let chan := 0x1F801080#32 + BitVec.ofNat 32 (16 * n.val) + seg
    let call := fun t : State => { t with cycles := s.cycles + latencyOf .dma, busCalls := s.busCalls + 1 }
    let t := writeDicr v s
    memWrite chan .b32 v s = .ok (call (setChan n { s.chan n with madr := v.setWidth 24 } s)) ∧
    memWrite (chan + 4) .b32 v s = .ok (call (setChan n { s.chan n with bcr := v } s)) ∧
    memWrite (chan + 8) .b32 v s = .ok (call (writeChcr n v s)) ∧
    memWrite (0x1F8010F0#32 + seg) .b32 v s = .ok (call { s with dpcr := v }) ∧
    memWrite (0x1F8010F4#32 + seg) .b32 v s = .ok (call t) ∧
    (t.dicr.word.extractLsb' 24 7 = s.dicr.word.extractLsb' 24 7 &&& ~~~(v.extractLsb' 24 7)) ∧
    (t.dicr.word.extractLsb' 15 9 = v.extractLsb' 15 9) ∧ t.dicr.word.extractLsb' 6 9 = 0 ∧
    (t.dicr.word.extractLsb' 0 6 = v.extractLsb' 0 6) ∧
    (t.dicr.word.getLsbD 31 = (v.getLsbD 15 || (v.getLsbD 23 && (v.extractLsb' 16 7 &&& t.dicr.flag != 0)))) ∧
    (t = { s with dicr := t.dicr, iStat := t.iStat }) ∧
    (t.iStat = if s.dicr.word.getLsbD 31 = false ∧ t.dicr.word.getLsbD 31 = true then s.iStat ||| 8#11 else s.iStat)

/-- 65_dma R416, R418, R419: which channels are serviceable; the channel a DMA step serves is one of them, there is one whenever any is
serviceable, and under the PlayStation-1 arbiter no serviceable channel has a smaller PRI, nor the same PRI and a higher
number. -/
def Obligations.DmaScheduling : Prop :=
  ∀ s : State,
    (∀ n : Chan, serviceable s n = true ↔
      (s.chan n).active = true ∧ (s.chan n).chcr.getLsbD 24 = true ∧ s.dpcr.getLsbD (4 * n.val + 3) = true ∧
        (((s.chan n).chcr.extractLsb' 9 2 = 0 ∧ (s.chan n).chcr.getLsbD 28 = true) ∨
          ((s.chan n).chcr.extractLsb' 9 2 = 1 ∧ (s.dmaReady.get n = true ∨ n = 6)) ∨
          ((s.chan n).chcr.extractLsb' 9 2 = 2 ∧ s.dmaReady.get n = true) ∨ (s.chan n).chcr.extractLsb' 9 2 = 3)) ∧
    (∀ n, nextChan s = some n → serviceable s n = true) ∧ (∀ n, serviceable s n = true → (nextChan s).isSome = true) ∧
    (s.cfg.arbiter = .ps1 → ∀ n m, nextChan s = some n → serviceable s m = true →
      (s.dpcr.extractLsb' (4 * n.val) 3).toNat < (s.dpcr.extractLsb' (4 * m.val) 3).toNat ∨
        ((s.dpcr.extractLsb' (4 * n.val) 3).toNat = (s.dpcr.extractLsb' (4 * m.val) 3).toNat ∧ m ≤ n))

/-- 65_dma R426, R430, R431: completion: START and active are cleared, the flag is set whatever IE holds, line 3 is raised exactly when
IE[n] and MIE are set; a transfer-level fault: START, TRIGGER and active are cleared and (reason, MADR, CHCR) is appended to the
channel's diagnostics. Nothing else changes in either. A unit of a channel with SYNC = 3 is the transfer fault BadSync. -/
def Obligations.DmaEndings : Prop :=
  ∀ (s : State) (n : Chan) (r : DmaFault),
    let c := s.chan n
    let t := complete n s
    let u := transferFault n r s
    (t.chan n = { c with chcr := c.chcr &&& 0xFEFFFFFF#32, active := false } ∧ otherChans n s t ∧ CompletionNoted n s t ∧
      t = { s with dma := t.dma, dicr := t.dicr, iStat := t.iStat }) ∧
    (u.chan n = { c with chcr := c.chcr &&& 0xEEFFFFFF#32, active := false,
                         diag := c.diag ++ [⟨r, c.madr, c.chcr &&& 0xEEFFFFFF#32⟩] } ∧
      otherChans n s u ∧ u = { s with dma := u.dma }) ∧
    (c.chcr.extractLsb' 9 2 = 3 → dmaUnit n s = transferFault n .badSync s)

/-- 65_dma R420, R421, R428: a manual unit of channels 0 to 5: when every address passes DmaAddrOK, RAM to device delivers the words in
order and leaves memory alone, device to RAM stores one free value at each address and leaves every other byte alone; then
it completes with MADR and BCR unchanged and TRIGGER cleared. Otherwise no word moves and the channel faults. -/
def Obligations.ManualTransfer : Prop :=
  ∀ (s : State) (n : Chan), n ≠ 6 → (s.chan n).chcr.extractLsb' 9 2 = 0 →
    let c := s.chan n
    let count := if c.bcr.toNat % 65536 = 0 then 65536 else c.bcr.toNat % 65536
    let addr := fun i : Nat => (c.madr.toNat : Int) + (if c.chcr.getLsbD 1 then -4 else 4) * i
    let ok := ∀ i < count, addr i % 4 = 0 ∧ 0 ≤ addr i ∧ addr i < 0x00200000
    let t := dmaUnit n s
    (ok → t.chan n = { c with chcr := c.chcr &&& 0xEEFFFFFF#32, active := false } ∧ otherChans n s t ∧
      DmaFrame s t ∧ ramCycles count s t ∧ CompletionNoted n s t ∧
      (c.chcr.getLsbD 0 = true → t.mem = s.mem ∧ t.draws = s.draws ∧
        t.emitted = s.emitted ++ (List.range count).map (fun i => .dmaWord n (wordAt s.mem (addr i).toNat))) ∧
      (c.chcr.getLsbD 0 = false → t.emitted = s.emitted ∧ t.draws = s.draws + count ∧
        (∀ i < count, wordAt t.mem (addr i).toNat = Config.freeWord (s.draws + i)) ∧
        (∀ x, (∀ i < count, x < (addr i).toNat ∨ (addr i).toNat + 4 ≤ x) → readByte t.mem x = readByte s.mem x))) ∧
    (¬ok → t = { s with dma := t.dma } ∧ otherChans n s t ∧
      t.chan n = { c with chcr := c.chcr &&& 0xEEFFFFFF#32, active := false,
                          diag := c.diag ++ [⟨.address, c.madr, c.chcr &&& 0xEEFFFFFF#32⟩] })

/-- 65_dma R422, R423: a request unit moves one word: with no block left it faults; otherwise, at a good address, MADR moves by 4, the
words left of the block count down, and at the last word of the last block the channel completes. -/
def Obligations.RequestTransfer : Prop :=
  ∀ (s : State) (n : Chan), (s.chan n).chcr.extractLsb' 9 2 = 1 →
    let c := s.chan n
    let a := c.madr.toNat
    let next := if c.chcr.getLsbD 1 then c.madr - 4 else c.madr + 4
    let less := (c.bcr.extractLsb' 16 16 - 1) ++ c.bcr.extractLsb' 0 16
    let bs := (c.bcr.extractLsb' 0 16).setWidth 17
    let t := dmaUnit n s
    (c.bcr.extractLsb' 0 16 = 0 ∨ c.bcr.extractLsb' 16 16 = 0 → t = transferFault n .zeroBlock s) ∧
    (c.bcr.extractLsb' 0 16 ≠ 0 → c.bcr.extractLsb' 16 16 ≠ 0 → ¬(a % 4 = 0 ∧ a < 0x00200000) →
      t = transferFault n .address s) ∧
    (c.bcr.extractLsb' 0 16 ≠ 0 → c.bcr.extractLsb' 16 16 ≠ 0 → a % 4 = 0 → a < 0x00200000 →
      otherChans n s t ∧ DmaFrame s t ∧ ramCycles 1 s t ∧
      (c.chcr.getLsbD 0 = true → t.mem = s.mem ∧ t.draws = s.draws ∧
        t.emitted = s.emitted ++ [.dmaWord n (wordAt s.mem a)]) ∧
      (c.chcr.getLsbD 0 = false → t.emitted = s.emitted ∧ t.draws = s.draws + 1 ∧
        wordAt t.mem a = Config.freeWord s.draws ∧ ∀ x, x < a ∨ a + 4 ≤ x → readByte t.mem x = readByte s.mem x) ∧
      (c.wkLeft ≠ 1 → t.chan n = { c with madr := next, wkLeft := c.wkLeft - 1 } ∧ NothingNoted s t) ∧
      (c.wkLeft = 1 → c.bcr.extractLsb' 16 16 ≠ 1 → t.chan n = { c with madr := next, bcr := less, wkLeft := bs } ∧
        NothingNoted s t) ∧
      (c.wkLeft = 1 → c.bcr.extractLsb' 16 16 = 1 →
        t.chan n = { c with madr := next, bcr := less, wkLeft := 0, chcr := c.chcr &&& 0xFEFFFFFF#32, active := false } ∧
        CompletionNoted n s t))

/-- 65_dma R424, R425: a linked-list unit is one node, RAM to device: it delivers the words after the header in ascending order and changes
no byte of memory; it ends the chain at next = 0xFFFFFF, and faults at a bad header, a bad last word or a bad next pointer. -/
def Obligations.LinkedListTransfer : Prop :=
  ∀ (s : State) (n : Chan), (s.chan n).chcr.extractLsb' 9 2 = 2 →
    let c := s.chan n
    let h := c.madr.toNat
    let hdr := wordAt s.mem h
    let cnt := hdr.toNat / 0x1000000
    let next := hdr.toNat % 0x1000000
    let good := fun a : Nat => a % 4 = 0 ∧ a < 0x00200000
    let sent := s.emitted ++ (List.range cnt).map (fun i => .dmaWord n (wordAt s.mem (h + 4 * (i + 1))))
    let t := dmaUnit n s
    t.mem = s.mem ∧ t.draws = s.draws ∧ otherChans n s t ∧ DmaFrame s t ∧
    (c.chcr.getLsbD 0 = false → t = transferFault n .linkDirection s) ∧
    (c.chcr.getLsbD 0 = true → ¬good h → t = transferFault n .linkPointer s) ∧
    (c.chcr.getLsbD 0 = true → good h → 0 < cnt → ¬good (h + 4 * cnt) →
      t.emitted = s.emitted ∧ t.chan n = c.failed .address ∧ NothingNoted s t ∧ ramCycles 1 s t) ∧
    (c.chcr.getLsbD 0 = true → good h → (cnt = 0 ∨ good (h + 4 * cnt)) →
      t.emitted = sent ∧ ramCycles (cnt + 1) s t ∧
      (next = 0xFFFFFF → t.chan n = { c with madr := 0xFFFFFF#24, chcr := c.chcr &&& 0xFEFFFFFF#32, active := false } ∧
        CompletionNoted n s t) ∧
      (next ≠ 0xFFFFFF → ¬good next → t.chan n = c.failed .linkPointer ∧ NothingNoted s t) ∧
      (next ≠ 0xFFFFFF → good next → t.chan n = { c with madr := BitVec.ofNat 24 next } ∧ NothingNoted s t))

/-- 65_dma R436: the ordering-table clear: with every address good it writes the reverse chain, the terminator at the lowest, changes no
other byte, and completes; otherwise it faults and no byte changes. -/
def Obligations.OrderingTableClear : Prop :=
  ∀ s : State, (s.chan 6).chcr.extractLsb' 9 2 = 0 →
    let c := s.chan 6
    let count := if c.bcr.toNat % 65536 = 0 then 65536 else c.bcr.toNat % 65536
    let ok := c.madr.toNat % 4 = 0 ∧ c.madr.toNat < 0x00200000 ∧ 4 * (count - 1) ≤ c.madr.toNat
    let t := dmaUnit 6 s
    otherChans 6 s t ∧ t.emitted = s.emitted ∧ t.draws = s.draws ∧ DmaFrame s t ∧
    (ok → t.chan 6 = { c with chcr := c.chcr &&& 0xEEFFFFFF#32, active := false } ∧ CompletionNoted 6 s t ∧ ramCycles count s t ∧
      (∀ i < count - 1, wordAt t.mem (c.madr.toNat - 4 * i) = BitVec.ofNat 32 (c.madr.toNat - 4 * i - 4)) ∧
      wordAt t.mem (c.madr.toNat - 4 * (count - 1)) = 0x00FFFFFF#32 ∧
      (∀ x, x < c.madr.toNat - 4 * (count - 1) ∨ c.madr.toNat + 4 ≤ x → readByte t.mem x = readByte s.mem x)) ∧
    (¬ok → t = { s with dma := t.dma } ∧
      t.chan 6 = { c with chcr := c.chcr &&& 0xEEFFFFFF#32, active := false,
                          diag := c.diag ++ [⟨.address, c.madr, c.chcr &&& 0xEEFFFFFF#32⟩] })

/-! ## Reset and the whole machine (70_reset_and_hazards) -/

/-- 70_reset R460, R461, R463: what the host's reset() leaves, for the state the spec gives a value for; and what it keeps. -/
def Obligations.HostResetValues : Prop :=
  ∀ s : State,
    let t := hostReset s
    t.pc = 0xBFC00000#32 ∧ t.ld = none ∧ t.br = none ∧ t.reg 0 = 0 ∧
    t.sr.getLsbD 0 = false ∧ t.sr.getLsbD 1 = false ∧ t.sr.getLsbD 17 = false ∧ t.sr.getLsbD 21 = false ∧
    t.sr.getLsbD 22 = true ∧ t.excDepth = 0 ∧ t.hiloAge = 0 ∧ t.iStat = 0 ∧ t.iMask = 0 ∧ t.dpcr = 0x07654321#32 ∧
    t.dicr.word = 0 ∧ (∀ n : Chan, (t.chan n).active = false ∧ (t.chan n).diag = [] ∧
      (t.chan n).chcr = if n = 6 then 2#32 else 0#32) ∧
    t.cycles = 0 ∧ t.faults = [] ∧ t.refused = false ∧ t.mem = s.mem ∧ t.cfg = s.cfg ∧
    (∀ r : Reg, t.gpr.written.get r.toFin = false) ∧ t.hiWritten = false ∧ t.loWritten = false

/-- 70_reset R460, R462 and the values the model chose (log entries 3 to 10, 12, 14, 16 to 20, 25): the state after reset fetches
from 0xBFC00000, the first BIOS word, in kernel mode with interrupts disabled, and satisfies the invariant; a BIOS nop there
leaves pc = 0xBFC00004. -/
def Obligations.ResetStateStarts : Prop :=
  Inv State.reset ∧ cpuNext State.reset = true ∧ irqRequest State.reset = false ∧ fetchFault State.reset = false ∧
    memoryAt State.reset.cfg State.reset.pc = some (.bios, 0x1FC00000) ∧
    ∀ s : State, s = hostReset s → cpuNext s = true → wordAt s.mem 0x1FC00000 = 0#32 →
      ∃ t, step s = .next t ∧ t.pc = 0xBFC00004#32 ∧ t.br = none ∧ t.ld = none ∧ ∀ r, t.reg r = s.reg r

/-- 20_memory R90, R93; 10_state R56, R58, R61; 65_dma R434: every transition keeps the invariant (memory in canonical form and within the
map, the read-0 bits of CHCR, the bus map's checks, START = 1 exactly when a channel is active; and the same of the save-states
the agenda still restores) and the parameters and bus map; and so does the state that a stop leaves. -/
def Obligations.StepKeepsInvariant : Prop :=
  ∀ s : State, Inv s → (∀ t, step s = .next t → Inv t ∧ t.cfg = s.cfg) ∧ Inv (advance s) ∧ (advance s).cfg = s.cfg

/-- 60_exceptions R362, R363; 45_cop_system R319: in user mode without CU0, a CPU step changes no COP0 register and no exception depth,
unless it enters an exception, which sets kernel mode with interrupts disabled and goes to a vector. -/
def Obligations.UserModeCannotChangeCop0 : Prop :=
  ∀ s t : State, s.sr.getLsbD 1 = true → s.sr.getLsbD 28 = false → cpuStep s = .next t →
    t.bpc = s.bpc ∧ t.bda = s.bda ∧ t.dcic = s.dcic ∧ t.bdam = s.bdam ∧ t.bpcm = s.bpcm ∧ t.cause.ip = s.cause.ip ∧
    ((t.sr = s.sr ∧ t.epc = s.epc ∧ t.cause = s.cause ∧ t.badVAddr = s.badVAddr ∧ t.excDepth = s.excDepth) ∨
      (t.sr.getLsbD 0 = false ∧ t.sr.getLsbD 1 = false ∧ t.sr.extractLsb' 2 4 = s.sr.extractLsb' 0 4 ∧
        t.sr.extractLsb' 6 26 = s.sr.extractLsb' 6 26 ∧ (t.epc = s.pc ∨ t.epc = s.pc - 4) ∧
        (t.pc = 0x80000080#32 ∨ t.pc = 0xBFC00180#32)))

/-- 10_state R60, 00_scope R13, R14; 40_cpu_step R151, R152; 20_memory R93; 65_dma R418; 70_reset R460, R464: in a state with a fault
recorded or the refusal mark set no CPU step and no DMA step is taken, in a configuration that fails its check none at all, and a
restored save-state must pass that check. A stop records its fault or sets the mark, and changes nothing else of the machine (the
turn is taken from the agenda); no transition but reset() and a restore clears what is recorded, and a reset() that comes next on
the agenda of a stopped state is taken. How the marks are recorded and read is log 26. -/
def Obligations.StoppedStatesStayStopped : Prop :=
  ∀ (s : State) (saved : Snapshot),
    let restored := { s with toSnapshot := saved }
    (configOk s = false → step s = .fault .configFault) ∧
    (configOk s = true → nextTurn s ∈ [.cpu, .dma] →
      (∀ f rest, s.faults = f :: rest → step s = .fault f) ∧
      (s.faults = [] → s.refused = true → step s = .refused .markedRefused)) ∧
    (configOk restored = true → restore saved s = .next restored) ∧
    (configOk restored = false → restore saved s = .fault .configFault) ∧
    (∀ t, step s = .next t → advance s = t) ∧
    (∀ f, step s = .fault f → advance s = { s with
      faults := if f ∈ s.faults then s.faults else s.faults ++ [f], agenda := s.agenda.tail, dmaOwed := false }) ∧
    (∀ r, step s = .refused r → advance s = { s with refused := true, agenda := s.agenda.tail, dmaOwed := false }) ∧
    (nextTurn s ≠ .hostReset → (∀ snap, nextTurn s ≠ .restore snap) →
      (∀ f ∈ s.faults, f ∈ (advance s).faults) ∧ (s.refused = true → (advance s).refused = true)) ∧
    (∀ rest, s.agenda = .hostReset :: rest → configOk s = true → (s.faults ≠ [] ∨ s.refused = true) →
      advance s = hostReset { s with agenda := rest, dmaOwed := false })
end

