-- ==== Sys2Proof/Laws/State.lean ====
section
/-! SUPPORT. What each named update of the state does to each field, one lemma a field. -/

namespace Sys2Proof.Machine

/-! `retire` -/

@[simp] theorem retire_cfg (e : Effect) (s : State) : (retire e s).cfg = s.cfg := rfl
@[simp] theorem retire_gpr (e : Effect) (s : State) : (retire e s).gpr = (s.gpr.apply (committedLoad e s)).apply e.wr := rfl
@[simp] theorem retire_hi (e : Effect) (s : State) : (retire e s).hi = e.hi.getD s.hi := rfl
@[simp] theorem retire_lo (e : Effect) (s : State) : (retire e s).lo = e.lo.getD s.lo := rfl
@[simp] theorem retire_hiWritten (e : Effect) (s : State) : (retire e s).hiWritten = (s.hiWritten || e.hi.isSome) := rfl
@[simp] theorem retire_loWritten (e : Effect) (s : State) : (retire e s).loWritten = (s.loWritten || e.lo.isSome) := rfl
@[simp] theorem retire_pc (e : Effect) (s : State) : (retire e s).pc = nextPc e s := rfl
@[simp] theorem retire_ld (e : Effect) (s : State) : (retire e s).ld = e.ld := rfl
@[simp] theorem retire_br (e : Effect) (s : State) : (retire e s).br = e.br := rfl
@[simp] theorem retire_hiloAge (e : Effect) (s : State) : (retire e s).hiloAge = agedHiLo e s := rfl
@[simp] theorem retire_sr (e : Effect) (s : State) : (retire e s).sr = s.sr := rfl
@[simp] theorem retire_cause (e : Effect) (s : State) : (retire e s).cause = s.cause := rfl
@[simp] theorem retire_epc (e : Effect) (s : State) : (retire e s).epc = s.epc := rfl
@[simp] theorem retire_badVAddr (e : Effect) (s : State) : (retire e s).badVAddr = s.badVAddr := rfl
@[simp] theorem retire_bpc (e : Effect) (s : State) : (retire e s).bpc = s.bpc := rfl
@[simp] theorem retire_bda (e : Effect) (s : State) : (retire e s).bda = s.bda := rfl
@[simp] theorem retire_dcic (e : Effect) (s : State) : (retire e s).dcic = s.dcic := rfl
@[simp] theorem retire_bdam (e : Effect) (s : State) : (retire e s).bdam = s.bdam := rfl
@[simp] theorem retire_bpcm (e : Effect) (s : State) : (retire e s).bpcm = s.bpcm := rfl
@[simp] theorem retire_excDepth (e : Effect) (s : State) : (retire e s).excDepth = s.excDepth := rfl
@[simp] theorem retire_iStat (e : Effect) (s : State) : (retire e s).iStat = s.iStat := rfl
@[simp] theorem retire_iMask (e : Effect) (s : State) : (retire e s).iMask = s.iMask := rfl
@[simp] theorem retire_dma (e : Effect) (s : State) : (retire e s).dma = s.dma := rfl
@[simp] theorem retire_dpcr (e : Effect) (s : State) : (retire e s).dpcr = s.dpcr := rfl
@[simp] theorem retire_dicr (e : Effect) (s : State) : (retire e s).dicr = s.dicr := rfl
@[simp] theorem retire_dmaReady (e : Effect) (s : State) : (retire e s).dmaReady = s.dmaReady := rfl
@[simp] theorem retire_mem (e : Effect) (s : State) : (retire e s).mem = s.mem := rfl
@[simp] theorem retire_cacheCtl (e : Effect) (s : State) : (retire e s).cacheCtl = s.cacheCtl := rfl
@[simp] theorem retire_cycles (e : Effect) (s : State) : (retire e s).cycles = s.cycles := rfl
@[simp] theorem retire_busCalls (e : Effect) (s : State) : (retire e s).busCalls = s.busCalls := rfl
@[simp] theorem retire_faults (e : Effect) (s : State) : (retire e s).faults = s.faults := rfl
@[simp] theorem retire_refused (e : Effect) (s : State) : (retire e s).refused = s.refused := rfl
@[simp] theorem retire_agenda (e : Effect) (s : State) : (retire e s).agenda = s.agenda := rfl
@[simp] theorem retire_dmaOwed (e : Effect) (s : State) : (retire e s).dmaOwed = s.dmaOwed := rfl
@[simp] theorem retire_draws (e : Effect) (s : State) : (retire e s).draws = s.draws := rfl
@[simp] theorem retire_emitted (e : Effect) (s : State) : (retire e s).emitted = s.emitted := rfl

/-! `excEntry` -/

@[simp] theorem excEntry_cfg (x : Exc) (s : State) : (excEntry x s).cfg = s.cfg := rfl
@[simp] theorem excEntry_gpr (x : Exc) (s : State) : (excEntry x s).gpr = s.gpr.apply s.ld := rfl
@[simp] theorem excEntry_hi (x : Exc) (s : State) : (excEntry x s).hi = s.hi := rfl
@[simp] theorem excEntry_lo (x : Exc) (s : State) : (excEntry x s).lo = s.lo := rfl
@[simp] theorem excEntry_hiWritten (x : Exc) (s : State) : (excEntry x s).hiWritten = s.hiWritten := rfl
@[simp] theorem excEntry_loWritten (x : Exc) (s : State) : (excEntry x s).loWritten = s.loWritten := rfl
@[simp] theorem excEntry_pc (x : Exc) (s : State) : (excEntry x s).pc = excVector s := rfl
@[simp] theorem excEntry_ld (x : Exc) (s : State) : (excEntry x s).ld = none := rfl
@[simp] theorem excEntry_br (x : Exc) (s : State) : (excEntry x s).br = none := rfl
@[simp] theorem excEntry_hiloAge (x : Exc) (s : State) : (excEntry x s).hiloAge = s.hiloAge := rfl
@[simp] theorem excEntry_sr (x : Exc) (s : State) : (excEntry x s).sr = pushMode s.sr := rfl
@[simp] theorem excEntry_cause (x : Exc) (s : State) : (excEntry x s).cause = ⟨excCode x, s.cause.ip, excCe x s, s.br.isSome⟩ := rfl
@[simp] theorem excEntry_epc (x : Exc) (s : State) : (excEntry x s).epc = if s.br.isSome then s.pc - 4 else s.pc := rfl
@[simp] theorem excEntry_badVAddr (x : Exc) (s : State) : (excEntry x s).badVAddr = excBadVAddr x s.badVAddr := rfl
@[simp] theorem excEntry_bpc (x : Exc) (s : State) : (excEntry x s).bpc = s.bpc := rfl
@[simp] theorem excEntry_bda (x : Exc) (s : State) : (excEntry x s).bda = s.bda := rfl
@[simp] theorem excEntry_dcic (x : Exc) (s : State) : (excEntry x s).dcic = s.dcic := rfl
@[simp] theorem excEntry_bdam (x : Exc) (s : State) : (excEntry x s).bdam = s.bdam := rfl
@[simp] theorem excEntry_bpcm (x : Exc) (s : State) : (excEntry x s).bpcm = s.bpcm := rfl
@[simp] theorem excEntry_excDepth (x : Exc) (s : State) : (excEntry x s).excDepth = deeper s.excDepth := rfl
@[simp] theorem excEntry_iStat (x : Exc) (s : State) : (excEntry x s).iStat = s.iStat := rfl
@[simp] theorem excEntry_iMask (x : Exc) (s : State) : (excEntry x s).iMask = s.iMask := rfl
@[simp] theorem excEntry_dma (x : Exc) (s : State) : (excEntry x s).dma = s.dma := rfl
@[simp] theorem excEntry_dpcr (x : Exc) (s : State) : (excEntry x s).dpcr = s.dpcr := rfl
@[simp] theorem excEntry_dicr (x : Exc) (s : State) : (excEntry x s).dicr = s.dicr := rfl
@[simp] theorem excEntry_dmaReady (x : Exc) (s : State) : (excEntry x s).dmaReady = s.dmaReady := rfl
@[simp] theorem excEntry_mem (x : Exc) (s : State) : (excEntry x s).mem = s.mem := rfl
@[simp] theorem excEntry_cacheCtl (x : Exc) (s : State) : (excEntry x s).cacheCtl = s.cacheCtl := rfl
@[simp] theorem excEntry_cycles (x : Exc) (s : State) : (excEntry x s).cycles = s.cycles := rfl
@[simp] theorem excEntry_busCalls (x : Exc) (s : State) : (excEntry x s).busCalls = s.busCalls := rfl
@[simp] theorem excEntry_faults (x : Exc) (s : State) : (excEntry x s).faults = s.faults := rfl
@[simp] theorem excEntry_refused (x : Exc) (s : State) : (excEntry x s).refused = s.refused := rfl
@[simp] theorem excEntry_agenda (x : Exc) (s : State) : (excEntry x s).agenda = s.agenda := rfl
@[simp] theorem excEntry_dmaOwed (x : Exc) (s : State) : (excEntry x s).dmaOwed = s.dmaOwed := rfl
@[simp] theorem excEntry_draws (x : Exc) (s : State) : (excEntry x s).draws = s.draws + excDraws x := rfl
@[simp] theorem excEntry_emitted (x : Exc) (s : State) : (excEntry x s).emitted = s.emitted := rfl

/-! `leaveException` -/

@[simp] theorem leaveException_cfg (s : State) : (leaveException s).cfg = s.cfg := rfl
@[simp] theorem leaveException_gpr (s : State) : (leaveException s).gpr = s.gpr := rfl
@[simp] theorem leaveException_hi (s : State) : (leaveException s).hi = s.hi := rfl
@[simp] theorem leaveException_lo (s : State) : (leaveException s).lo = s.lo := rfl
@[simp] theorem leaveException_hiWritten (s : State) : (leaveException s).hiWritten = s.hiWritten := rfl
@[simp] theorem leaveException_loWritten (s : State) : (leaveException s).loWritten = s.loWritten := rfl
@[simp] theorem leaveException_pc (s : State) : (leaveException s).pc = s.pc := rfl
@[simp] theorem leaveException_ld (s : State) : (leaveException s).ld = s.ld := rfl
@[simp] theorem leaveException_br (s : State) : (leaveException s).br = s.br := rfl
@[simp] theorem leaveException_hiloAge (s : State) : (leaveException s).hiloAge = s.hiloAge := rfl
@[simp] theorem leaveException_sr (s : State) : (leaveException s).sr = popMode s.sr := rfl
@[simp] theorem leaveException_cause (s : State) : (leaveException s).cause = s.cause := rfl
@[simp] theorem leaveException_epc (s : State) : (leaveException s).epc = s.epc := rfl
@[simp] theorem leaveException_badVAddr (s : State) : (leaveException s).badVAddr = s.badVAddr := rfl
@[simp] theorem leaveException_bpc (s : State) : (leaveException s).bpc = s.bpc := rfl
@[simp] theorem leaveException_bda (s : State) : (leaveException s).bda = s.bda := rfl
@[simp] theorem leaveException_dcic (s : State) : (leaveException s).dcic = s.dcic := rfl
@[simp] theorem leaveException_bdam (s : State) : (leaveException s).bdam = s.bdam := rfl
@[simp] theorem leaveException_bpcm (s : State) : (leaveException s).bpcm = s.bpcm := rfl
@[simp] theorem leaveException_excDepth (s : State) : (leaveException s).excDepth = shallower s.excDepth := rfl
@[simp] theorem leaveException_iStat (s : State) : (leaveException s).iStat = s.iStat := rfl
@[simp] theorem leaveException_iMask (s : State) : (leaveException s).iMask = s.iMask := rfl
@[simp] theorem leaveException_dma (s : State) : (leaveException s).dma = s.dma := rfl
@[simp] theorem leaveException_dpcr (s : State) : (leaveException s).dpcr = s.dpcr := rfl
@[simp] theorem leaveException_dicr (s : State) : (leaveException s).dicr = s.dicr := rfl
@[simp] theorem leaveException_dmaReady (s : State) : (leaveException s).dmaReady = s.dmaReady := rfl
@[simp] theorem leaveException_mem (s : State) : (leaveException s).mem = s.mem := rfl
@[simp] theorem leaveException_cacheCtl (s : State) : (leaveException s).cacheCtl = s.cacheCtl := rfl
@[simp] theorem leaveException_cycles (s : State) : (leaveException s).cycles = s.cycles := rfl
@[simp] theorem leaveException_busCalls (s : State) : (leaveException s).busCalls = s.busCalls := rfl
@[simp] theorem leaveException_faults (s : State) : (leaveException s).faults = s.faults := rfl
@[simp] theorem leaveException_refused (s : State) : (leaveException s).refused = s.refused := rfl
@[simp] theorem leaveException_agenda (s : State) : (leaveException s).agenda = s.agenda := rfl
@[simp] theorem leaveException_dmaOwed (s : State) : (leaveException s).dmaOwed = s.dmaOwed := rfl
@[simp] theorem leaveException_draws (s : State) : (leaveException s).draws = s.draws := rfl
@[simp] theorem leaveException_emitted (s : State) : (leaveException s).emitted = s.emitted := rfl

/-! `noteDraw` -/

@[simp] theorem noteDraw_cfg (s : State) : (noteDraw s).cfg = s.cfg := rfl
@[simp] theorem noteDraw_gpr (s : State) : (noteDraw s).gpr = s.gpr := rfl
@[simp] theorem noteDraw_hi (s : State) : (noteDraw s).hi = s.hi := rfl
@[simp] theorem noteDraw_lo (s : State) : (noteDraw s).lo = s.lo := rfl
@[simp] theorem noteDraw_hiWritten (s : State) : (noteDraw s).hiWritten = s.hiWritten := rfl
@[simp] theorem noteDraw_loWritten (s : State) : (noteDraw s).loWritten = s.loWritten := rfl
@[simp] theorem noteDraw_pc (s : State) : (noteDraw s).pc = s.pc := rfl
@[simp] theorem noteDraw_ld (s : State) : (noteDraw s).ld = s.ld := rfl
@[simp] theorem noteDraw_br (s : State) : (noteDraw s).br = s.br := rfl
@[simp] theorem noteDraw_hiloAge (s : State) : (noteDraw s).hiloAge = s.hiloAge := rfl
@[simp] theorem noteDraw_sr (s : State) : (noteDraw s).sr = s.sr := rfl
@[simp] theorem noteDraw_cause (s : State) : (noteDraw s).cause = s.cause := rfl
@[simp] theorem noteDraw_epc (s : State) : (noteDraw s).epc = s.epc := rfl
@[simp] theorem noteDraw_badVAddr (s : State) : (noteDraw s).badVAddr = s.badVAddr := rfl
@[simp] theorem noteDraw_bpc (s : State) : (noteDraw s).bpc = s.bpc := rfl
@[simp] theorem noteDraw_bda (s : State) : (noteDraw s).bda = s.bda := rfl
@[simp] theorem noteDraw_dcic (s : State) : (noteDraw s).dcic = s.dcic := rfl
@[simp] theorem noteDraw_bdam (s : State) : (noteDraw s).bdam = s.bdam := rfl
@[simp] theorem noteDraw_bpcm (s : State) : (noteDraw s).bpcm = s.bpcm := rfl
@[simp] theorem noteDraw_excDepth (s : State) : (noteDraw s).excDepth = s.excDepth := rfl
@[simp] theorem noteDraw_iStat (s : State) : (noteDraw s).iStat = s.iStat := rfl
@[simp] theorem noteDraw_iMask (s : State) : (noteDraw s).iMask = s.iMask := rfl
@[simp] theorem noteDraw_dma (s : State) : (noteDraw s).dma = s.dma := rfl
@[simp] theorem noteDraw_dpcr (s : State) : (noteDraw s).dpcr = s.dpcr := rfl
@[simp] theorem noteDraw_dicr (s : State) : (noteDraw s).dicr = s.dicr := rfl
@[simp] theorem noteDraw_dmaReady (s : State) : (noteDraw s).dmaReady = s.dmaReady := rfl
@[simp] theorem noteDraw_mem (s : State) : (noteDraw s).mem = s.mem := rfl
@[simp] theorem noteDraw_cacheCtl (s : State) : (noteDraw s).cacheCtl = s.cacheCtl := rfl
@[simp] theorem noteDraw_cycles (s : State) : (noteDraw s).cycles = s.cycles := rfl
@[simp] theorem noteDraw_busCalls (s : State) : (noteDraw s).busCalls = s.busCalls := rfl
@[simp] theorem noteDraw_faults (s : State) : (noteDraw s).faults = s.faults := rfl
@[simp] theorem noteDraw_refused (s : State) : (noteDraw s).refused = s.refused := rfl
@[simp] theorem noteDraw_agenda (s : State) : (noteDraw s).agenda = s.agenda := rfl
@[simp] theorem noteDraw_dmaOwed (s : State) : (noteDraw s).dmaOwed = s.dmaOwed := rfl
@[simp] theorem noteDraw_draws (s : State) : (noteDraw s).draws = s.draws + 1 := rfl
@[simp] theorem noteDraw_emitted (s : State) : (noteDraw s).emitted = s.emitted := rfl

/-! `emit` -/

@[simp] theorem emit_cfg (e : DevEvent) (s : State) : (emit e s).cfg = s.cfg := rfl
@[simp] theorem emit_gpr (e : DevEvent) (s : State) : (emit e s).gpr = s.gpr := rfl
@[simp] theorem emit_hi (e : DevEvent) (s : State) : (emit e s).hi = s.hi := rfl
@[simp] theorem emit_lo (e : DevEvent) (s : State) : (emit e s).lo = s.lo := rfl
@[simp] theorem emit_hiWritten (e : DevEvent) (s : State) : (emit e s).hiWritten = s.hiWritten := rfl
@[simp] theorem emit_loWritten (e : DevEvent) (s : State) : (emit e s).loWritten = s.loWritten := rfl
@[simp] theorem emit_pc (e : DevEvent) (s : State) : (emit e s).pc = s.pc := rfl
@[simp] theorem emit_ld (e : DevEvent) (s : State) : (emit e s).ld = s.ld := rfl
@[simp] theorem emit_br (e : DevEvent) (s : State) : (emit e s).br = s.br := rfl
@[simp] theorem emit_hiloAge (e : DevEvent) (s : State) : (emit e s).hiloAge = s.hiloAge := rfl
@[simp] theorem emit_sr (e : DevEvent) (s : State) : (emit e s).sr = s.sr := rfl
@[simp] theorem emit_cause (e : DevEvent) (s : State) : (emit e s).cause = s.cause := rfl
@[simp] theorem emit_epc (e : DevEvent) (s : State) : (emit e s).epc = s.epc := rfl
@[simp] theorem emit_badVAddr (e : DevEvent) (s : State) : (emit e s).badVAddr = s.badVAddr := rfl
@[simp] theorem emit_bpc (e : DevEvent) (s : State) : (emit e s).bpc = s.bpc := rfl
@[simp] theorem emit_bda (e : DevEvent) (s : State) : (emit e s).bda = s.bda := rfl
@[simp] theorem emit_dcic (e : DevEvent) (s : State) : (emit e s).dcic = s.dcic := rfl
@[simp] theorem emit_bdam (e : DevEvent) (s : State) : (emit e s).bdam = s.bdam := rfl
@[simp] theorem emit_bpcm (e : DevEvent) (s : State) : (emit e s).bpcm = s.bpcm := rfl
@[simp] theorem emit_excDepth (e : DevEvent) (s : State) : (emit e s).excDepth = s.excDepth := rfl
@[simp] theorem emit_iStat (e : DevEvent) (s : State) : (emit e s).iStat = s.iStat := rfl
@[simp] theorem emit_iMask (e : DevEvent) (s : State) : (emit e s).iMask = s.iMask := rfl
@[simp] theorem emit_dma (e : DevEvent) (s : State) : (emit e s).dma = s.dma := rfl
@[simp] theorem emit_dpcr (e : DevEvent) (s : State) : (emit e s).dpcr = s.dpcr := rfl
@[simp] theorem emit_dicr (e : DevEvent) (s : State) : (emit e s).dicr = s.dicr := rfl
@[simp] theorem emit_dmaReady (e : DevEvent) (s : State) : (emit e s).dmaReady = s.dmaReady := rfl
@[simp] theorem emit_mem (e : DevEvent) (s : State) : (emit e s).mem = s.mem := rfl
@[simp] theorem emit_cacheCtl (e : DevEvent) (s : State) : (emit e s).cacheCtl = s.cacheCtl := rfl
@[simp] theorem emit_cycles (e : DevEvent) (s : State) : (emit e s).cycles = s.cycles := rfl
@[simp] theorem emit_busCalls (e : DevEvent) (s : State) : (emit e s).busCalls = s.busCalls := rfl
@[simp] theorem emit_faults (e : DevEvent) (s : State) : (emit e s).faults = s.faults := rfl
@[simp] theorem emit_refused (e : DevEvent) (s : State) : (emit e s).refused = s.refused := rfl
@[simp] theorem emit_agenda (e : DevEvent) (s : State) : (emit e s).agenda = s.agenda := rfl
@[simp] theorem emit_dmaOwed (e : DevEvent) (s : State) : (emit e s).dmaOwed = s.dmaOwed := rfl
@[simp] theorem emit_draws (e : DevEvent) (s : State) : (emit e s).draws = s.draws := rfl
@[simp] theorem emit_emitted (e : DevEvent) (s : State) : (emit e s).emitted = s.emitted ++ [e] := rfl

/-! `raiseLine` -/

@[simp] theorem raiseLine_cfg (l : Line) (s : State) : (raiseLine l s).cfg = s.cfg := rfl
@[simp] theorem raiseLine_gpr (l : Line) (s : State) : (raiseLine l s).gpr = s.gpr := rfl
@[simp] theorem raiseLine_hi (l : Line) (s : State) : (raiseLine l s).hi = s.hi := rfl
@[simp] theorem raiseLine_lo (l : Line) (s : State) : (raiseLine l s).lo = s.lo := rfl
@[simp] theorem raiseLine_hiWritten (l : Line) (s : State) : (raiseLine l s).hiWritten = s.hiWritten := rfl
@[simp] theorem raiseLine_loWritten (l : Line) (s : State) : (raiseLine l s).loWritten = s.loWritten := rfl
@[simp] theorem raiseLine_pc (l : Line) (s : State) : (raiseLine l s).pc = s.pc := rfl
@[simp] theorem raiseLine_ld (l : Line) (s : State) : (raiseLine l s).ld = s.ld := rfl
@[simp] theorem raiseLine_br (l : Line) (s : State) : (raiseLine l s).br = s.br := rfl
@[simp] theorem raiseLine_hiloAge (l : Line) (s : State) : (raiseLine l s).hiloAge = s.hiloAge := rfl
@[simp] theorem raiseLine_sr (l : Line) (s : State) : (raiseLine l s).sr = s.sr := rfl
@[simp] theorem raiseLine_cause (l : Line) (s : State) : (raiseLine l s).cause = s.cause := rfl
@[simp] theorem raiseLine_epc (l : Line) (s : State) : (raiseLine l s).epc = s.epc := rfl
@[simp] theorem raiseLine_badVAddr (l : Line) (s : State) : (raiseLine l s).badVAddr = s.badVAddr := rfl
@[simp] theorem raiseLine_bpc (l : Line) (s : State) : (raiseLine l s).bpc = s.bpc := rfl
@[simp] theorem raiseLine_bda (l : Line) (s : State) : (raiseLine l s).bda = s.bda := rfl
@[simp] theorem raiseLine_dcic (l : Line) (s : State) : (raiseLine l s).dcic = s.dcic := rfl
@[simp] theorem raiseLine_bdam (l : Line) (s : State) : (raiseLine l s).bdam = s.bdam := rfl
@[simp] theorem raiseLine_bpcm (l : Line) (s : State) : (raiseLine l s).bpcm = s.bpcm := rfl
@[simp] theorem raiseLine_excDepth (l : Line) (s : State) : (raiseLine l s).excDepth = s.excDepth := rfl
@[simp] theorem raiseLine_iStat (l : Line) (s : State) : (raiseLine l s).iStat = s.iStat ||| BitVec.twoPow 11 l.val := rfl
@[simp] theorem raiseLine_iMask (l : Line) (s : State) : (raiseLine l s).iMask = s.iMask := rfl
@[simp] theorem raiseLine_dma (l : Line) (s : State) : (raiseLine l s).dma = s.dma := rfl
@[simp] theorem raiseLine_dpcr (l : Line) (s : State) : (raiseLine l s).dpcr = s.dpcr := rfl
@[simp] theorem raiseLine_dicr (l : Line) (s : State) : (raiseLine l s).dicr = s.dicr := rfl
@[simp] theorem raiseLine_dmaReady (l : Line) (s : State) : (raiseLine l s).dmaReady = s.dmaReady := rfl
@[simp] theorem raiseLine_mem (l : Line) (s : State) : (raiseLine l s).mem = s.mem := rfl
@[simp] theorem raiseLine_cacheCtl (l : Line) (s : State) : (raiseLine l s).cacheCtl = s.cacheCtl := rfl
@[simp] theorem raiseLine_cycles (l : Line) (s : State) : (raiseLine l s).cycles = s.cycles := rfl
@[simp] theorem raiseLine_busCalls (l : Line) (s : State) : (raiseLine l s).busCalls = s.busCalls := rfl
@[simp] theorem raiseLine_faults (l : Line) (s : State) : (raiseLine l s).faults = s.faults := rfl
@[simp] theorem raiseLine_refused (l : Line) (s : State) : (raiseLine l s).refused = s.refused := rfl
@[simp] theorem raiseLine_agenda (l : Line) (s : State) : (raiseLine l s).agenda = s.agenda := rfl
@[simp] theorem raiseLine_dmaOwed (l : Line) (s : State) : (raiseLine l s).dmaOwed = s.dmaOwed := rfl
@[simp] theorem raiseLine_draws (l : Line) (s : State) : (raiseLine l s).draws = s.draws := rfl
@[simp] theorem raiseLine_emitted (l : Line) (s : State) : (raiseLine l s).emitted = s.emitted := rfl

/-! `setIMask` -/

@[simp] theorem setIMask_cfg (v : Word) (s : State) : (setIMask v s).cfg = s.cfg := rfl
@[simp] theorem setIMask_gpr (v : Word) (s : State) : (setIMask v s).gpr = s.gpr := rfl
@[simp] theorem setIMask_hi (v : Word) (s : State) : (setIMask v s).hi = s.hi := rfl
@[simp] theorem setIMask_lo (v : Word) (s : State) : (setIMask v s).lo = s.lo := rfl
@[simp] theorem setIMask_hiWritten (v : Word) (s : State) : (setIMask v s).hiWritten = s.hiWritten := rfl
@[simp] theorem setIMask_loWritten (v : Word) (s : State) : (setIMask v s).loWritten = s.loWritten := rfl
@[simp] theorem setIMask_pc (v : Word) (s : State) : (setIMask v s).pc = s.pc := rfl
@[simp] theorem setIMask_ld (v : Word) (s : State) : (setIMask v s).ld = s.ld := rfl
@[simp] theorem setIMask_br (v : Word) (s : State) : (setIMask v s).br = s.br := rfl
@[simp] theorem setIMask_hiloAge (v : Word) (s : State) : (setIMask v s).hiloAge = s.hiloAge := rfl
@[simp] theorem setIMask_sr (v : Word) (s : State) : (setIMask v s).sr = s.sr := rfl
@[simp] theorem setIMask_cause (v : Word) (s : State) : (setIMask v s).cause = s.cause := rfl
@[simp] theorem setIMask_epc (v : Word) (s : State) : (setIMask v s).epc = s.epc := rfl
@[simp] theorem setIMask_badVAddr (v : Word) (s : State) : (setIMask v s).badVAddr = s.badVAddr := rfl
@[simp] theorem setIMask_bpc (v : Word) (s : State) : (setIMask v s).bpc = s.bpc := rfl
@[simp] theorem setIMask_bda (v : Word) (s : State) : (setIMask v s).bda = s.bda := rfl
@[simp] theorem setIMask_dcic (v : Word) (s : State) : (setIMask v s).dcic = s.dcic := rfl
@[simp] theorem setIMask_bdam (v : Word) (s : State) : (setIMask v s).bdam = s.bdam := rfl
@[simp] theorem setIMask_bpcm (v : Word) (s : State) : (setIMask v s).bpcm = s.bpcm := rfl
@[simp] theorem setIMask_excDepth (v : Word) (s : State) : (setIMask v s).excDepth = s.excDepth := rfl
@[simp] theorem setIMask_iStat (v : Word) (s : State) : (setIMask v s).iStat = s.iStat := rfl
@[simp] theorem setIMask_iMask (v : Word) (s : State) : (setIMask v s).iMask = v.setWidth 11 := rfl
@[simp] theorem setIMask_dma (v : Word) (s : State) : (setIMask v s).dma = s.dma := rfl
@[simp] theorem setIMask_dpcr (v : Word) (s : State) : (setIMask v s).dpcr = s.dpcr := rfl
@[simp] theorem setIMask_dicr (v : Word) (s : State) : (setIMask v s).dicr = s.dicr := rfl
@[simp] theorem setIMask_dmaReady (v : Word) (s : State) : (setIMask v s).dmaReady = s.dmaReady := rfl
@[simp] theorem setIMask_mem (v : Word) (s : State) : (setIMask v s).mem = s.mem := rfl
@[simp] theorem setIMask_cacheCtl (v : Word) (s : State) : (setIMask v s).cacheCtl = s.cacheCtl := rfl
@[simp] theorem setIMask_cycles (v : Word) (s : State) : (setIMask v s).cycles = s.cycles := rfl
@[simp] theorem setIMask_busCalls (v : Word) (s : State) : (setIMask v s).busCalls = s.busCalls := rfl
@[simp] theorem setIMask_faults (v : Word) (s : State) : (setIMask v s).faults = s.faults := rfl
@[simp] theorem setIMask_refused (v : Word) (s : State) : (setIMask v s).refused = s.refused := rfl
@[simp] theorem setIMask_agenda (v : Word) (s : State) : (setIMask v s).agenda = s.agenda := rfl
@[simp] theorem setIMask_dmaOwed (v : Word) (s : State) : (setIMask v s).dmaOwed = s.dmaOwed := rfl
@[simp] theorem setIMask_draws (v : Word) (s : State) : (setIMask v s).draws = s.draws := rfl
@[simp] theorem setIMask_emitted (v : Word) (s : State) : (setIMask v s).emitted = s.emitted := rfl

/-! `acknowledge` -/

@[simp] theorem acknowledge_cfg (v : Word) (s : State) : (acknowledge v s).cfg = s.cfg := rfl
@[simp] theorem acknowledge_gpr (v : Word) (s : State) : (acknowledge v s).gpr = s.gpr := rfl
@[simp] theorem acknowledge_hi (v : Word) (s : State) : (acknowledge v s).hi = s.hi := rfl
@[simp] theorem acknowledge_lo (v : Word) (s : State) : (acknowledge v s).lo = s.lo := rfl
@[simp] theorem acknowledge_hiWritten (v : Word) (s : State) : (acknowledge v s).hiWritten = s.hiWritten := rfl
@[simp] theorem acknowledge_loWritten (v : Word) (s : State) : (acknowledge v s).loWritten = s.loWritten := rfl
@[simp] theorem acknowledge_pc (v : Word) (s : State) : (acknowledge v s).pc = s.pc := rfl
@[simp] theorem acknowledge_ld (v : Word) (s : State) : (acknowledge v s).ld = s.ld := rfl
@[simp] theorem acknowledge_br (v : Word) (s : State) : (acknowledge v s).br = s.br := rfl
@[simp] theorem acknowledge_hiloAge (v : Word) (s : State) : (acknowledge v s).hiloAge = s.hiloAge := rfl
@[simp] theorem acknowledge_sr (v : Word) (s : State) : (acknowledge v s).sr = s.sr := rfl
@[simp] theorem acknowledge_cause (v : Word) (s : State) : (acknowledge v s).cause = s.cause := rfl
@[simp] theorem acknowledge_epc (v : Word) (s : State) : (acknowledge v s).epc = s.epc := rfl
@[simp] theorem acknowledge_badVAddr (v : Word) (s : State) : (acknowledge v s).badVAddr = s.badVAddr := rfl
@[simp] theorem acknowledge_bpc (v : Word) (s : State) : (acknowledge v s).bpc = s.bpc := rfl
@[simp] theorem acknowledge_bda (v : Word) (s : State) : (acknowledge v s).bda = s.bda := rfl
@[simp] theorem acknowledge_dcic (v : Word) (s : State) : (acknowledge v s).dcic = s.dcic := rfl
@[simp] theorem acknowledge_bdam (v : Word) (s : State) : (acknowledge v s).bdam = s.bdam := rfl
@[simp] theorem acknowledge_bpcm (v : Word) (s : State) : (acknowledge v s).bpcm = s.bpcm := rfl
@[simp] theorem acknowledge_excDepth (v : Word) (s : State) : (acknowledge v s).excDepth = s.excDepth := rfl
@[simp] theorem acknowledge_iMask (v : Word) (s : State) : (acknowledge v s).iMask = s.iMask := rfl
@[simp] theorem acknowledge_dma (v : Word) (s : State) : (acknowledge v s).dma = s.dma := rfl
@[simp] theorem acknowledge_dpcr (v : Word) (s : State) : (acknowledge v s).dpcr = s.dpcr := rfl
@[simp] theorem acknowledge_dicr (v : Word) (s : State) : (acknowledge v s).dicr = s.dicr := rfl
@[simp] theorem acknowledge_dmaReady (v : Word) (s : State) : (acknowledge v s).dmaReady = s.dmaReady := rfl
@[simp] theorem acknowledge_mem (v : Word) (s : State) : (acknowledge v s).mem = s.mem := rfl
@[simp] theorem acknowledge_cacheCtl (v : Word) (s : State) : (acknowledge v s).cacheCtl = s.cacheCtl := rfl
@[simp] theorem acknowledge_cycles (v : Word) (s : State) : (acknowledge v s).cycles = s.cycles := rfl
@[simp] theorem acknowledge_busCalls (v : Word) (s : State) : (acknowledge v s).busCalls = s.busCalls := rfl
@[simp] theorem acknowledge_faults (v : Word) (s : State) : (acknowledge v s).faults = s.faults := rfl
@[simp] theorem acknowledge_refused (v : Word) (s : State) : (acknowledge v s).refused = s.refused := rfl
@[simp] theorem acknowledge_agenda (v : Word) (s : State) : (acknowledge v s).agenda = s.agenda := rfl
@[simp] theorem acknowledge_dmaOwed (v : Word) (s : State) : (acknowledge v s).dmaOwed = s.dmaOwed := rfl
@[simp] theorem acknowledge_draws (v : Word) (s : State) : (acknowledge v s).draws = s.draws := rfl
@[simp] theorem acknowledge_emitted (v : Word) (s : State) : (acknowledge v s).emitted = s.emitted := rfl

/-! `setChan` -/

@[simp] theorem setChan_cfg (n : Chan) (c : Channel) (s : State) : (setChan n c s).cfg = s.cfg := rfl
@[simp] theorem setChan_gpr (n : Chan) (c : Channel) (s : State) : (setChan n c s).gpr = s.gpr := rfl
@[simp] theorem setChan_hi (n : Chan) (c : Channel) (s : State) : (setChan n c s).hi = s.hi := rfl
@[simp] theorem setChan_lo (n : Chan) (c : Channel) (s : State) : (setChan n c s).lo = s.lo := rfl
@[simp] theorem setChan_hiWritten (n : Chan) (c : Channel) (s : State) : (setChan n c s).hiWritten = s.hiWritten := rfl
@[simp] theorem setChan_loWritten (n : Chan) (c : Channel) (s : State) : (setChan n c s).loWritten = s.loWritten := rfl
@[simp] theorem setChan_pc (n : Chan) (c : Channel) (s : State) : (setChan n c s).pc = s.pc := rfl
@[simp] theorem setChan_ld (n : Chan) (c : Channel) (s : State) : (setChan n c s).ld = s.ld := rfl
@[simp] theorem setChan_br (n : Chan) (c : Channel) (s : State) : (setChan n c s).br = s.br := rfl
@[simp] theorem setChan_hiloAge (n : Chan) (c : Channel) (s : State) : (setChan n c s).hiloAge = s.hiloAge := rfl
@[simp] theorem setChan_sr (n : Chan) (c : Channel) (s : State) : (setChan n c s).sr = s.sr := rfl
@[simp] theorem setChan_cause (n : Chan) (c : Channel) (s : State) : (setChan n c s).cause = s.cause := rfl
@[simp] theorem setChan_epc (n : Chan) (c : Channel) (s : State) : (setChan n c s).epc = s.epc := rfl
@[simp] theorem setChan_badVAddr (n : Chan) (c : Channel) (s : State) : (setChan n c s).badVAddr = s.badVAddr := rfl
@[simp] theorem setChan_bpc (n : Chan) (c : Channel) (s : State) : (setChan n c s).bpc = s.bpc := rfl
@[simp] theorem setChan_bda (n : Chan) (c : Channel) (s : State) : (setChan n c s).bda = s.bda := rfl
@[simp] theorem setChan_dcic (n : Chan) (c : Channel) (s : State) : (setChan n c s).dcic = s.dcic := rfl
@[simp] theorem setChan_bdam (n : Chan) (c : Channel) (s : State) : (setChan n c s).bdam = s.bdam := rfl
@[simp] theorem setChan_bpcm (n : Chan) (c : Channel) (s : State) : (setChan n c s).bpcm = s.bpcm := rfl
@[simp] theorem setChan_excDepth (n : Chan) (c : Channel) (s : State) : (setChan n c s).excDepth = s.excDepth := rfl
@[simp] theorem setChan_iStat (n : Chan) (c : Channel) (s : State) : (setChan n c s).iStat = s.iStat := rfl
@[simp] theorem setChan_iMask (n : Chan) (c : Channel) (s : State) : (setChan n c s).iMask = s.iMask := rfl
@[simp] theorem setChan_dma (n : Chan) (c : Channel) (s : State) : (setChan n c s).dma = s.dma.set n.val c n.isLt := rfl
@[simp] theorem setChan_dpcr (n : Chan) (c : Channel) (s : State) : (setChan n c s).dpcr = s.dpcr := rfl
@[simp] theorem setChan_dicr (n : Chan) (c : Channel) (s : State) : (setChan n c s).dicr = s.dicr := rfl
@[simp] theorem setChan_dmaReady (n : Chan) (c : Channel) (s : State) : (setChan n c s).dmaReady = s.dmaReady := rfl
@[simp] theorem setChan_mem (n : Chan) (c : Channel) (s : State) : (setChan n c s).mem = s.mem := rfl
@[simp] theorem setChan_cacheCtl (n : Chan) (c : Channel) (s : State) : (setChan n c s).cacheCtl = s.cacheCtl := rfl
@[simp] theorem setChan_cycles (n : Chan) (c : Channel) (s : State) : (setChan n c s).cycles = s.cycles := rfl
@[simp] theorem setChan_busCalls (n : Chan) (c : Channel) (s : State) : (setChan n c s).busCalls = s.busCalls := rfl
@[simp] theorem setChan_faults (n : Chan) (c : Channel) (s : State) : (setChan n c s).faults = s.faults := rfl
@[simp] theorem setChan_refused (n : Chan) (c : Channel) (s : State) : (setChan n c s).refused = s.refused := rfl
@[simp] theorem setChan_agenda (n : Chan) (c : Channel) (s : State) : (setChan n c s).agenda = s.agenda := rfl
@[simp] theorem setChan_dmaOwed (n : Chan) (c : Channel) (s : State) : (setChan n c s).dmaOwed = s.dmaOwed := rfl
@[simp] theorem setChan_draws (n : Chan) (c : Channel) (s : State) : (setChan n c s).draws = s.draws := rfl
@[simp] theorem setChan_emitted (n : Chan) (c : Channel) (s : State) : (setChan n c s).emitted = s.emitted := rfl

/-! `dmaTick` -/

@[simp] theorem dmaTick_cfg (s : State) : (dmaTick s).cfg = s.cfg := rfl
@[simp] theorem dmaTick_gpr (s : State) : (dmaTick s).gpr = s.gpr := rfl
@[simp] theorem dmaTick_hi (s : State) : (dmaTick s).hi = s.hi := rfl
@[simp] theorem dmaTick_lo (s : State) : (dmaTick s).lo = s.lo := rfl
@[simp] theorem dmaTick_hiWritten (s : State) : (dmaTick s).hiWritten = s.hiWritten := rfl
@[simp] theorem dmaTick_loWritten (s : State) : (dmaTick s).loWritten = s.loWritten := rfl
@[simp] theorem dmaTick_pc (s : State) : (dmaTick s).pc = s.pc := rfl
@[simp] theorem dmaTick_ld (s : State) : (dmaTick s).ld = s.ld := rfl
@[simp] theorem dmaTick_br (s : State) : (dmaTick s).br = s.br := rfl
@[simp] theorem dmaTick_hiloAge (s : State) : (dmaTick s).hiloAge = s.hiloAge := rfl
@[simp] theorem dmaTick_sr (s : State) : (dmaTick s).sr = s.sr := rfl
@[simp] theorem dmaTick_cause (s : State) : (dmaTick s).cause = s.cause := rfl
@[simp] theorem dmaTick_epc (s : State) : (dmaTick s).epc = s.epc := rfl
@[simp] theorem dmaTick_badVAddr (s : State) : (dmaTick s).badVAddr = s.badVAddr := rfl
@[simp] theorem dmaTick_bpc (s : State) : (dmaTick s).bpc = s.bpc := rfl
@[simp] theorem dmaTick_bda (s : State) : (dmaTick s).bda = s.bda := rfl
@[simp] theorem dmaTick_dcic (s : State) : (dmaTick s).dcic = s.dcic := rfl
@[simp] theorem dmaTick_bdam (s : State) : (dmaTick s).bdam = s.bdam := rfl
@[simp] theorem dmaTick_bpcm (s : State) : (dmaTick s).bpcm = s.bpcm := rfl
@[simp] theorem dmaTick_excDepth (s : State) : (dmaTick s).excDepth = s.excDepth := rfl
@[simp] theorem dmaTick_iStat (s : State) : (dmaTick s).iStat = s.iStat := rfl
@[simp] theorem dmaTick_iMask (s : State) : (dmaTick s).iMask = s.iMask := rfl
@[simp] theorem dmaTick_dma (s : State) : (dmaTick s).dma = s.dma := rfl
@[simp] theorem dmaTick_dpcr (s : State) : (dmaTick s).dpcr = s.dpcr := rfl
@[simp] theorem dmaTick_dicr (s : State) : (dmaTick s).dicr = s.dicr := rfl
@[simp] theorem dmaTick_dmaReady (s : State) : (dmaTick s).dmaReady = s.dmaReady := rfl
@[simp] theorem dmaTick_mem (s : State) : (dmaTick s).mem = s.mem := rfl
@[simp] theorem dmaTick_cacheCtl (s : State) : (dmaTick s).cacheCtl = s.cacheCtl := rfl
@[simp] theorem dmaTick_cycles (s : State) : (dmaTick s).cycles = s.cycles + Config.latency .ram := rfl
@[simp] theorem dmaTick_busCalls (s : State) : (dmaTick s).busCalls = s.busCalls := rfl
@[simp] theorem dmaTick_faults (s : State) : (dmaTick s).faults = s.faults := rfl
@[simp] theorem dmaTick_refused (s : State) : (dmaTick s).refused = s.refused := rfl
@[simp] theorem dmaTick_agenda (s : State) : (dmaTick s).agenda = s.agenda := rfl
@[simp] theorem dmaTick_dmaOwed (s : State) : (dmaTick s).dmaOwed = s.dmaOwed := rfl
@[simp] theorem dmaTick_draws (s : State) : (dmaTick s).draws = s.draws := rfl
@[simp] theorem dmaTick_emitted (s : State) : (dmaTick s).emitted = s.emitted := rfl

/-! `noteCall` -/

@[simp] theorem noteCall_cfg (h : Handler) (s : State) : (noteCall h s).cfg = s.cfg := rfl
@[simp] theorem noteCall_gpr (h : Handler) (s : State) : (noteCall h s).gpr = s.gpr := rfl
@[simp] theorem noteCall_hi (h : Handler) (s : State) : (noteCall h s).hi = s.hi := rfl
@[simp] theorem noteCall_lo (h : Handler) (s : State) : (noteCall h s).lo = s.lo := rfl
@[simp] theorem noteCall_hiWritten (h : Handler) (s : State) : (noteCall h s).hiWritten = s.hiWritten := rfl
@[simp] theorem noteCall_loWritten (h : Handler) (s : State) : (noteCall h s).loWritten = s.loWritten := rfl
@[simp] theorem noteCall_pc (h : Handler) (s : State) : (noteCall h s).pc = s.pc := rfl
@[simp] theorem noteCall_ld (h : Handler) (s : State) : (noteCall h s).ld = s.ld := rfl
@[simp] theorem noteCall_br (h : Handler) (s : State) : (noteCall h s).br = s.br := rfl
@[simp] theorem noteCall_hiloAge (h : Handler) (s : State) : (noteCall h s).hiloAge = s.hiloAge := rfl
@[simp] theorem noteCall_sr (h : Handler) (s : State) : (noteCall h s).sr = s.sr := rfl
@[simp] theorem noteCall_cause (h : Handler) (s : State) : (noteCall h s).cause = s.cause := rfl
@[simp] theorem noteCall_epc (h : Handler) (s : State) : (noteCall h s).epc = s.epc := rfl
@[simp] theorem noteCall_badVAddr (h : Handler) (s : State) : (noteCall h s).badVAddr = s.badVAddr := rfl
@[simp] theorem noteCall_bpc (h : Handler) (s : State) : (noteCall h s).bpc = s.bpc := rfl
@[simp] theorem noteCall_bda (h : Handler) (s : State) : (noteCall h s).bda = s.bda := rfl
@[simp] theorem noteCall_dcic (h : Handler) (s : State) : (noteCall h s).dcic = s.dcic := rfl
@[simp] theorem noteCall_bdam (h : Handler) (s : State) : (noteCall h s).bdam = s.bdam := rfl
@[simp] theorem noteCall_bpcm (h : Handler) (s : State) : (noteCall h s).bpcm = s.bpcm := rfl
@[simp] theorem noteCall_excDepth (h : Handler) (s : State) : (noteCall h s).excDepth = s.excDepth := rfl
@[simp] theorem noteCall_iStat (h : Handler) (s : State) : (noteCall h s).iStat = s.iStat := rfl
@[simp] theorem noteCall_iMask (h : Handler) (s : State) : (noteCall h s).iMask = s.iMask := rfl
@[simp] theorem noteCall_dma (h : Handler) (s : State) : (noteCall h s).dma = s.dma := rfl
@[simp] theorem noteCall_dpcr (h : Handler) (s : State) : (noteCall h s).dpcr = s.dpcr := rfl
@[simp] theorem noteCall_dicr (h : Handler) (s : State) : (noteCall h s).dicr = s.dicr := rfl
@[simp] theorem noteCall_dmaReady (h : Handler) (s : State) : (noteCall h s).dmaReady = s.dmaReady := rfl
@[simp] theorem noteCall_mem (h : Handler) (s : State) : (noteCall h s).mem = s.mem := rfl
@[simp] theorem noteCall_cacheCtl (h : Handler) (s : State) : (noteCall h s).cacheCtl = s.cacheCtl := rfl
@[simp] theorem noteCall_cycles (h : Handler) (s : State) : (noteCall h s).cycles = s.cycles + latencyOf h := rfl
@[simp] theorem noteCall_busCalls (h : Handler) (s : State) : (noteCall h s).busCalls = s.busCalls + 1 := rfl
@[simp] theorem noteCall_faults (h : Handler) (s : State) : (noteCall h s).faults = s.faults := rfl
@[simp] theorem noteCall_refused (h : Handler) (s : State) : (noteCall h s).refused = s.refused := rfl
@[simp] theorem noteCall_agenda (h : Handler) (s : State) : (noteCall h s).agenda = s.agenda := rfl
@[simp] theorem noteCall_dmaOwed (h : Handler) (s : State) : (noteCall h s).dmaOwed = s.dmaOwed := rfl
@[simp] theorem noteCall_draws (h : Handler) (s : State) : (noteCall h s).draws = s.draws := rfl
@[simp] theorem noteCall_emitted (h : Handler) (s : State) : (noteCall h s).emitted = s.emitted := rfl

/-! `pokeGpr` -/

@[simp] theorem pokeGpr_cfg (r : Reg) (v : Word) (s : State) : (pokeGpr r v s).cfg = s.cfg := rfl
@[simp] theorem pokeGpr_gpr (r : Reg) (v : Word) (s : State) : (pokeGpr r v s).gpr = s.gpr.write r v := rfl
@[simp] theorem pokeGpr_hi (r : Reg) (v : Word) (s : State) : (pokeGpr r v s).hi = s.hi := rfl
@[simp] theorem pokeGpr_lo (r : Reg) (v : Word) (s : State) : (pokeGpr r v s).lo = s.lo := rfl
@[simp] theorem pokeGpr_hiWritten (r : Reg) (v : Word) (s : State) : (pokeGpr r v s).hiWritten = s.hiWritten := rfl
@[simp] theorem pokeGpr_loWritten (r : Reg) (v : Word) (s : State) : (pokeGpr r v s).loWritten = s.loWritten := rfl
@[simp] theorem pokeGpr_pc (r : Reg) (v : Word) (s : State) : (pokeGpr r v s).pc = s.pc := rfl
@[simp] theorem pokeGpr_ld (r : Reg) (v : Word) (s : State) : (pokeGpr r v s).ld = s.ld := rfl
@[simp] theorem pokeGpr_br (r : Reg) (v : Word) (s : State) : (pokeGpr r v s).br = s.br := rfl
@[simp] theorem pokeGpr_hiloAge (r : Reg) (v : Word) (s : State) : (pokeGpr r v s).hiloAge = s.hiloAge := rfl
@[simp] theorem pokeGpr_sr (r : Reg) (v : Word) (s : State) : (pokeGpr r v s).sr = s.sr := rfl
@[simp] theorem pokeGpr_cause (r : Reg) (v : Word) (s : State) : (pokeGpr r v s).cause = s.cause := rfl
@[simp] theorem pokeGpr_epc (r : Reg) (v : Word) (s : State) : (pokeGpr r v s).epc = s.epc := rfl
@[simp] theorem pokeGpr_badVAddr (r : Reg) (v : Word) (s : State) : (pokeGpr r v s).badVAddr = s.badVAddr := rfl
@[simp] theorem pokeGpr_bpc (r : Reg) (v : Word) (s : State) : (pokeGpr r v s).bpc = s.bpc := rfl
@[simp] theorem pokeGpr_bda (r : Reg) (v : Word) (s : State) : (pokeGpr r v s).bda = s.bda := rfl
@[simp] theorem pokeGpr_dcic (r : Reg) (v : Word) (s : State) : (pokeGpr r v s).dcic = s.dcic := rfl
@[simp] theorem pokeGpr_bdam (r : Reg) (v : Word) (s : State) : (pokeGpr r v s).bdam = s.bdam := rfl
@[simp] theorem pokeGpr_bpcm (r : Reg) (v : Word) (s : State) : (pokeGpr r v s).bpcm = s.bpcm := rfl
@[simp] theorem pokeGpr_excDepth (r : Reg) (v : Word) (s : State) : (pokeGpr r v s).excDepth = s.excDepth := rfl
@[simp] theorem pokeGpr_iStat (r : Reg) (v : Word) (s : State) : (pokeGpr r v s).iStat = s.iStat := rfl
@[simp] theorem pokeGpr_iMask (r : Reg) (v : Word) (s : State) : (pokeGpr r v s).iMask = s.iMask := rfl
@[simp] theorem pokeGpr_dma (r : Reg) (v : Word) (s : State) : (pokeGpr r v s).dma = s.dma := rfl
@[simp] theorem pokeGpr_dpcr (r : Reg) (v : Word) (s : State) : (pokeGpr r v s).dpcr = s.dpcr := rfl
@[simp] theorem pokeGpr_dicr (r : Reg) (v : Word) (s : State) : (pokeGpr r v s).dicr = s.dicr := rfl
@[simp] theorem pokeGpr_dmaReady (r : Reg) (v : Word) (s : State) : (pokeGpr r v s).dmaReady = s.dmaReady := rfl
@[simp] theorem pokeGpr_mem (r : Reg) (v : Word) (s : State) : (pokeGpr r v s).mem = s.mem := rfl
@[simp] theorem pokeGpr_cacheCtl (r : Reg) (v : Word) (s : State) : (pokeGpr r v s).cacheCtl = s.cacheCtl := rfl
@[simp] theorem pokeGpr_cycles (r : Reg) (v : Word) (s : State) : (pokeGpr r v s).cycles = s.cycles := rfl
@[simp] theorem pokeGpr_busCalls (r : Reg) (v : Word) (s : State) : (pokeGpr r v s).busCalls = s.busCalls := rfl
@[simp] theorem pokeGpr_faults (r : Reg) (v : Word) (s : State) : (pokeGpr r v s).faults = s.faults := rfl
@[simp] theorem pokeGpr_refused (r : Reg) (v : Word) (s : State) : (pokeGpr r v s).refused = s.refused := rfl
@[simp] theorem pokeGpr_agenda (r : Reg) (v : Word) (s : State) : (pokeGpr r v s).agenda = s.agenda := rfl
@[simp] theorem pokeGpr_dmaOwed (r : Reg) (v : Word) (s : State) : (pokeGpr r v s).dmaOwed = s.dmaOwed := rfl
@[simp] theorem pokeGpr_draws (r : Reg) (v : Word) (s : State) : (pokeGpr r v s).draws = s.draws := rfl
@[simp] theorem pokeGpr_emitted (r : Reg) (v : Word) (s : State) : (pokeGpr r v s).emitted = s.emitted := rfl

/-! `pokeReg` -/

/-- A register written by introspection is none of the parameters, the memory, or a device register. -/
theorem pokeReg_frame (r : HostReg) (v : Word) (s : State) :
    (pokeReg r v s).cfg = s.cfg ∧ (pokeReg r v s).mem = s.mem ∧ (pokeReg r v s).dma = s.dma ∧
      (pokeReg r v s).iStat = s.iStat ∧ (pokeReg r v s).iMask = s.iMask ∧ (pokeReg r v s).dicr = s.dicr := by
  cases r with
  | cop0 q => simp only [pokeReg, pokeCop0]; split <;> exact ⟨rfl, rfl, rfl, rfl, rfl, rfl⟩
  | _ => exact ⟨rfl, rfl, rfl, rfl, rfl, rfl⟩

/-! `beginCpu` -/

@[simp] theorem beginCpu_cfg (s : State) : (beginCpu s).cfg = s.cfg := rfl
@[simp] theorem beginCpu_gpr (s : State) : (beginCpu s).gpr = s.gpr := rfl
@[simp] theorem beginCpu_hi (s : State) : (beginCpu s).hi = s.hi := rfl
@[simp] theorem beginCpu_lo (s : State) : (beginCpu s).lo = s.lo := rfl
@[simp] theorem beginCpu_hiWritten (s : State) : (beginCpu s).hiWritten = s.hiWritten := rfl
@[simp] theorem beginCpu_loWritten (s : State) : (beginCpu s).loWritten = s.loWritten := rfl
@[simp] theorem beginCpu_pc (s : State) : (beginCpu s).pc = s.pc := rfl
@[simp] theorem beginCpu_ld (s : State) : (beginCpu s).ld = s.ld := rfl
@[simp] theorem beginCpu_br (s : State) : (beginCpu s).br = s.br := rfl
@[simp] theorem beginCpu_hiloAge (s : State) : (beginCpu s).hiloAge = s.hiloAge := rfl
@[simp] theorem beginCpu_sr (s : State) : (beginCpu s).sr = s.sr := rfl
@[simp] theorem beginCpu_cause (s : State) : (beginCpu s).cause = s.cause := rfl
@[simp] theorem beginCpu_epc (s : State) : (beginCpu s).epc = s.epc := rfl
@[simp] theorem beginCpu_badVAddr (s : State) : (beginCpu s).badVAddr = s.badVAddr := rfl
@[simp] theorem beginCpu_bpc (s : State) : (beginCpu s).bpc = s.bpc := rfl
@[simp] theorem beginCpu_bda (s : State) : (beginCpu s).bda = s.bda := rfl
@[simp] theorem beginCpu_dcic (s : State) : (beginCpu s).dcic = s.dcic := rfl
@[simp] theorem beginCpu_bdam (s : State) : (beginCpu s).bdam = s.bdam := rfl
@[simp] theorem beginCpu_bpcm (s : State) : (beginCpu s).bpcm = s.bpcm := rfl
@[simp] theorem beginCpu_excDepth (s : State) : (beginCpu s).excDepth = s.excDepth := rfl
@[simp] theorem beginCpu_iStat (s : State) : (beginCpu s).iStat = s.iStat := rfl
@[simp] theorem beginCpu_iMask (s : State) : (beginCpu s).iMask = s.iMask := rfl
@[simp] theorem beginCpu_dma (s : State) : (beginCpu s).dma = s.dma := rfl
@[simp] theorem beginCpu_dpcr (s : State) : (beginCpu s).dpcr = s.dpcr := rfl
@[simp] theorem beginCpu_dicr (s : State) : (beginCpu s).dicr = s.dicr := rfl
@[simp] theorem beginCpu_dmaReady (s : State) : (beginCpu s).dmaReady = s.dmaReady := rfl
@[simp] theorem beginCpu_mem (s : State) : (beginCpu s).mem = s.mem := rfl
@[simp] theorem beginCpu_cacheCtl (s : State) : (beginCpu s).cacheCtl = s.cacheCtl := rfl
@[simp] theorem beginCpu_cycles (s : State) : (beginCpu s).cycles = s.cycles := rfl
@[simp] theorem beginCpu_busCalls (s : State) : (beginCpu s).busCalls = 0 := rfl
@[simp] theorem beginCpu_faults (s : State) : (beginCpu s).faults = s.faults := rfl
@[simp] theorem beginCpu_refused (s : State) : (beginCpu s).refused = s.refused := rfl
@[simp] theorem beginCpu_agenda (s : State) : (beginCpu s).agenda = s.agenda := rfl
@[simp] theorem beginCpu_dmaOwed (s : State) : (beginCpu s).dmaOwed = (s.cfg.schedule == .eager || s.agenda.isEmpty) := rfl
@[simp] theorem beginCpu_draws (s : State) : (beginCpu s).draws = s.draws := rfl
@[simp] theorem beginCpu_emitted (s : State) : (beginCpu s).emitted = s.emitted := rfl

/-! `startTurn` -/

@[simp] theorem startTurn_cfg (s : State) : (startTurn s).cfg = s.cfg := rfl
@[simp] theorem startTurn_gpr (s : State) : (startTurn s).gpr = s.gpr := rfl
@[simp] theorem startTurn_hi (s : State) : (startTurn s).hi = s.hi := rfl
@[simp] theorem startTurn_lo (s : State) : (startTurn s).lo = s.lo := rfl
@[simp] theorem startTurn_hiWritten (s : State) : (startTurn s).hiWritten = s.hiWritten := rfl
@[simp] theorem startTurn_loWritten (s : State) : (startTurn s).loWritten = s.loWritten := rfl
@[simp] theorem startTurn_pc (s : State) : (startTurn s).pc = s.pc := rfl
@[simp] theorem startTurn_ld (s : State) : (startTurn s).ld = s.ld := rfl
@[simp] theorem startTurn_br (s : State) : (startTurn s).br = s.br := rfl
@[simp] theorem startTurn_hiloAge (s : State) : (startTurn s).hiloAge = s.hiloAge := rfl
@[simp] theorem startTurn_sr (s : State) : (startTurn s).sr = s.sr := rfl
@[simp] theorem startTurn_cause (s : State) : (startTurn s).cause = s.cause := rfl
@[simp] theorem startTurn_epc (s : State) : (startTurn s).epc = s.epc := rfl
@[simp] theorem startTurn_badVAddr (s : State) : (startTurn s).badVAddr = s.badVAddr := rfl
@[simp] theorem startTurn_bpc (s : State) : (startTurn s).bpc = s.bpc := rfl
@[simp] theorem startTurn_bda (s : State) : (startTurn s).bda = s.bda := rfl
@[simp] theorem startTurn_dcic (s : State) : (startTurn s).dcic = s.dcic := rfl
@[simp] theorem startTurn_bdam (s : State) : (startTurn s).bdam = s.bdam := rfl
@[simp] theorem startTurn_bpcm (s : State) : (startTurn s).bpcm = s.bpcm := rfl
@[simp] theorem startTurn_excDepth (s : State) : (startTurn s).excDepth = s.excDepth := rfl
@[simp] theorem startTurn_iStat (s : State) : (startTurn s).iStat = s.iStat := rfl
@[simp] theorem startTurn_iMask (s : State) : (startTurn s).iMask = s.iMask := rfl
@[simp] theorem startTurn_dma (s : State) : (startTurn s).dma = s.dma := rfl
@[simp] theorem startTurn_dpcr (s : State) : (startTurn s).dpcr = s.dpcr := rfl
@[simp] theorem startTurn_dicr (s : State) : (startTurn s).dicr = s.dicr := rfl
@[simp] theorem startTurn_dmaReady (s : State) : (startTurn s).dmaReady = s.dmaReady := rfl
@[simp] theorem startTurn_mem (s : State) : (startTurn s).mem = s.mem := rfl
@[simp] theorem startTurn_cacheCtl (s : State) : (startTurn s).cacheCtl = s.cacheCtl := rfl
@[simp] theorem startTurn_cycles (s : State) : (startTurn s).cycles = s.cycles := rfl
@[simp] theorem startTurn_busCalls (s : State) : (startTurn s).busCalls = s.busCalls := rfl
@[simp] theorem startTurn_faults (s : State) : (startTurn s).faults = s.faults := rfl
@[simp] theorem startTurn_refused (s : State) : (startTurn s).refused = s.refused := rfl
@[simp] theorem startTurn_agenda (s : State) : (startTurn s).agenda = s.agenda.tail := rfl
@[simp] theorem startTurn_dmaOwed (s : State) : (startTurn s).dmaOwed = false := rfl
@[simp] theorem startTurn_draws (s : State) : (startTurn s).draws = s.draws := rfl
@[simp] theorem startTurn_emitted (s : State) : (startTurn s).emitted = s.emitted := rfl

/-! `recordFault`, `recordRefusal`. -/

@[simp] theorem recordFault_gpr (f : Fault) (s : State) : (recordFault f s).gpr = s.gpr := by unfold recordFault; split <;> rfl
@[simp] theorem recordFault_hi (f : Fault) (s : State) : (recordFault f s).hi = s.hi := by unfold recordFault; split <;> rfl
@[simp] theorem recordFault_lo (f : Fault) (s : State) : (recordFault f s).lo = s.lo := by unfold recordFault; split <;> rfl
@[simp] theorem recordFault_hiWritten (f : Fault) (s : State) : (recordFault f s).hiWritten = s.hiWritten := by unfold recordFault; split <;> rfl
@[simp] theorem recordFault_loWritten (f : Fault) (s : State) : (recordFault f s).loWritten = s.loWritten := by unfold recordFault; split <;> rfl
@[simp] theorem recordFault_pc (f : Fault) (s : State) : (recordFault f s).pc = s.pc := by unfold recordFault; split <;> rfl
@[simp] theorem recordFault_ld (f : Fault) (s : State) : (recordFault f s).ld = s.ld := by unfold recordFault; split <;> rfl
@[simp] theorem recordFault_br (f : Fault) (s : State) : (recordFault f s).br = s.br := by unfold recordFault; split <;> rfl
@[simp] theorem recordFault_hiloAge (f : Fault) (s : State) : (recordFault f s).hiloAge = s.hiloAge := by unfold recordFault; split <;> rfl
@[simp] theorem recordFault_sr (f : Fault) (s : State) : (recordFault f s).sr = s.sr := by unfold recordFault; split <;> rfl
@[simp] theorem recordFault_cause (f : Fault) (s : State) : (recordFault f s).cause = s.cause := by unfold recordFault; split <;> rfl
@[simp] theorem recordFault_epc (f : Fault) (s : State) : (recordFault f s).epc = s.epc := by unfold recordFault; split <;> rfl
@[simp] theorem recordFault_badVAddr (f : Fault) (s : State) : (recordFault f s).badVAddr = s.badVAddr := by unfold recordFault; split <;> rfl
@[simp] theorem recordFault_bpc (f : Fault) (s : State) : (recordFault f s).bpc = s.bpc := by unfold recordFault; split <;> rfl
@[simp] theorem recordFault_bda (f : Fault) (s : State) : (recordFault f s).bda = s.bda := by unfold recordFault; split <;> rfl
@[simp] theorem recordFault_dcic (f : Fault) (s : State) : (recordFault f s).dcic = s.dcic := by unfold recordFault; split <;> rfl
@[simp] theorem recordFault_bdam (f : Fault) (s : State) : (recordFault f s).bdam = s.bdam := by unfold recordFault; split <;> rfl
@[simp] theorem recordFault_bpcm (f : Fault) (s : State) : (recordFault f s).bpcm = s.bpcm := by unfold recordFault; split <;> rfl
@[simp] theorem recordFault_excDepth (f : Fault) (s : State) : (recordFault f s).excDepth = s.excDepth := by unfold recordFault; split <;> rfl
@[simp] theorem recordFault_iStat (f : Fault) (s : State) : (recordFault f s).iStat = s.iStat := by unfold recordFault; split <;> rfl
@[simp] theorem recordFault_iMask (f : Fault) (s : State) : (recordFault f s).iMask = s.iMask := by unfold recordFault; split <;> rfl
@[simp] theorem recordFault_dma (f : Fault) (s : State) : (recordFault f s).dma = s.dma := by unfold recordFault; split <;> rfl
@[simp] theorem recordFault_dpcr (f : Fault) (s : State) : (recordFault f s).dpcr = s.dpcr := by unfold recordFault; split <;> rfl
@[simp] theorem recordFault_dicr (f : Fault) (s : State) : (recordFault f s).dicr = s.dicr := by unfold recordFault; split <;> rfl
@[simp] theorem recordFault_mem (f : Fault) (s : State) : (recordFault f s).mem = s.mem := by unfold recordFault; split <;> rfl
@[simp] theorem recordFault_cacheCtl (f : Fault) (s : State) : (recordFault f s).cacheCtl = s.cacheCtl := by unfold recordFault; split <;> rfl
@[simp] theorem recordFault_cycles (f : Fault) (s : State) : (recordFault f s).cycles = s.cycles := by unfold recordFault; split <;> rfl
@[simp] theorem recordFault_refused (f : Fault) (s : State) : (recordFault f s).refused = s.refused := by unfold recordFault; split <;> rfl
@[simp] theorem recordFault_cfg (f : Fault) (s : State) : (recordFault f s).cfg = s.cfg := by unfold recordFault; split <;> rfl
@[simp] theorem recordFault_dmaReady (f : Fault) (s : State) : (recordFault f s).dmaReady = s.dmaReady := by unfold recordFault; split <;> rfl
@[simp] theorem recordFault_busCalls (f : Fault) (s : State) : (recordFault f s).busCalls = s.busCalls := by unfold recordFault; split <;> rfl
@[simp] theorem recordFault_agenda (f : Fault) (s : State) : (recordFault f s).agenda = s.agenda := by unfold recordFault; split <;> rfl
@[simp] theorem recordFault_dmaOwed (f : Fault) (s : State) : (recordFault f s).dmaOwed = s.dmaOwed := by unfold recordFault; split <;> rfl
@[simp] theorem recordFault_draws (f : Fault) (s : State) : (recordFault f s).draws = s.draws := by unfold recordFault; split <;> rfl
@[simp] theorem recordFault_emitted (f : Fault) (s : State) : (recordFault f s).emitted = s.emitted := by unfold recordFault; split <;> rfl
@[simp] theorem recordFault_faults (f : Fault) (s : State) :
    (recordFault f s).faults = if f ∈ s.faults then s.faults else s.faults ++ [f] := by unfold recordFault; split <;> rfl
@[simp] theorem recordRefusal_gpr (s : State) : (recordRefusal s).gpr = s.gpr := rfl
@[simp] theorem recordRefusal_hi (s : State) : (recordRefusal s).hi = s.hi := rfl
@[simp] theorem recordRefusal_lo (s : State) : (recordRefusal s).lo = s.lo := rfl
@[simp] theorem recordRefusal_hiWritten (s : State) : (recordRefusal s).hiWritten = s.hiWritten := rfl
@[simp] theorem recordRefusal_loWritten (s : State) : (recordRefusal s).loWritten = s.loWritten := rfl
@[simp] theorem recordRefusal_pc (s : State) : (recordRefusal s).pc = s.pc := rfl
@[simp] theorem recordRefusal_ld (s : State) : (recordRefusal s).ld = s.ld := rfl
@[simp] theorem recordRefusal_br (s : State) : (recordRefusal s).br = s.br := rfl
@[simp] theorem recordRefusal_hiloAge (s : State) : (recordRefusal s).hiloAge = s.hiloAge := rfl
@[simp] theorem recordRefusal_sr (s : State) : (recordRefusal s).sr = s.sr := rfl
@[simp] theorem recordRefusal_cause (s : State) : (recordRefusal s).cause = s.cause := rfl
@[simp] theorem recordRefusal_epc (s : State) : (recordRefusal s).epc = s.epc := rfl
@[simp] theorem recordRefusal_badVAddr (s : State) : (recordRefusal s).badVAddr = s.badVAddr := rfl
@[simp] theorem recordRefusal_bpc (s : State) : (recordRefusal s).bpc = s.bpc := rfl
@[simp] theorem recordRefusal_bda (s : State) : (recordRefusal s).bda = s.bda := rfl
@[simp] theorem recordRefusal_dcic (s : State) : (recordRefusal s).dcic = s.dcic := rfl
@[simp] theorem recordRefusal_bdam (s : State) : (recordRefusal s).bdam = s.bdam := rfl
@[simp] theorem recordRefusal_bpcm (s : State) : (recordRefusal s).bpcm = s.bpcm := rfl
@[simp] theorem recordRefusal_excDepth (s : State) : (recordRefusal s).excDepth = s.excDepth := rfl
@[simp] theorem recordRefusal_iStat (s : State) : (recordRefusal s).iStat = s.iStat := rfl
@[simp] theorem recordRefusal_iMask (s : State) : (recordRefusal s).iMask = s.iMask := rfl
@[simp] theorem recordRefusal_dma (s : State) : (recordRefusal s).dma = s.dma := rfl
@[simp] theorem recordRefusal_dpcr (s : State) : (recordRefusal s).dpcr = s.dpcr := rfl
@[simp] theorem recordRefusal_dicr (s : State) : (recordRefusal s).dicr = s.dicr := rfl
@[simp] theorem recordRefusal_mem (s : State) : (recordRefusal s).mem = s.mem := rfl
@[simp] theorem recordRefusal_cacheCtl (s : State) : (recordRefusal s).cacheCtl = s.cacheCtl := rfl
@[simp] theorem recordRefusal_cycles (s : State) : (recordRefusal s).cycles = s.cycles := rfl
@[simp] theorem recordRefusal_faults (s : State) : (recordRefusal s).faults = s.faults := rfl
@[simp] theorem recordRefusal_refused (s : State) : (recordRefusal s).refused = true := rfl
@[simp] theorem recordRefusal_cfg (s : State) : (recordRefusal s).cfg = s.cfg := rfl
@[simp] theorem recordRefusal_dmaReady (s : State) : (recordRefusal s).dmaReady = s.dmaReady := rfl
@[simp] theorem recordRefusal_busCalls (s : State) : (recordRefusal s).busCalls = s.busCalls := rfl
@[simp] theorem recordRefusal_agenda (s : State) : (recordRefusal s).agenda = s.agenda := rfl
@[simp] theorem recordRefusal_dmaOwed (s : State) : (recordRefusal s).dmaOwed = s.dmaOwed := rfl
@[simp] theorem recordRefusal_draws (s : State) : (recordRefusal s).draws = s.draws := rfl
@[simp] theorem recordRefusal_emitted (s : State) : (recordRefusal s).emitted = s.emitted := rfl

end Sys2Proof.Machine
end

