-- ==== Sys2Proof/Laws/Registers.lean ====
section
/-! SUPPORT. The register file: what a read finds after a write. -/

namespace Sys2Proof.Machine

@[simp] theorem RegFile.read_zero (f : RegFile) : f.read 0 = 0 := by simp [RegFile.read]

@[simp] theorem State.reg_zero (s : State) : s.reg 0 = 0 := RegFile.read_zero _

theorem RegFile.read_write (f : RegFile) (r q : Reg) (v : Word) :
    (f.write r v).read q = if q = 0 then 0 else if r = q then v else f.read q := by
  by_cases hq : q = 0
  · simp only [RegFile.read, hq, if_true]
  · by_cases hr : r = 0
    · have hrq : r ≠ q := fun h => hq (h ▸ hr)
      simp only [RegFile.write, hr, if_true, if_neg hq, if_neg (hr ▸ hrq)]
    · simp only [RegFile.read, RegFile.write, hq, hr, if_false, Vector.get_eq_getElem, Vector.getElem_set]
      by_cases h : r = q
      · simp [h]
      · have hn : r.toNat ≠ q.toNat := fun e => h (BitVec.eq_of_toNat_eq e)
        simp [h, hn]

/-- The `written` flags after a write. -/
theorem RegFile.written_write (f : RegFile) (r q : Reg) (v : Word) :
    (f.write r v).written.get q.toFin = (f.written.get q.toFin || (r != 0 && r == q)) := by
  by_cases hr : r = 0
  · simp [RegFile.write, hr]
  · simp only [RegFile.write, hr, if_false, Vector.get_eq_getElem, Vector.getElem_set]
    by_cases h : r = q
    · subst h
      have hr' : r ≠ 0#5 := hr
      simp [hr']
    · have hn : r.toNat ≠ q.toNat := fun e => h (BitVec.eq_of_toNat_eq e)
      simp [h, hn]

theorem RegFile.read_apply (f : RegFile) (w : Option RegWrite) (q : Reg) :
    (f.apply w).read q =
      if q = 0 then 0 else match w with
        | some w => if w.reg = q then w.val else f.read q
        | none => f.read q := by
  cases w with
  | none =>
    by_cases hq : q = 0
    · simp only [RegFile.apply, hq, if_true, RegFile.read]
    · simp only [RegFile.apply, hq, if_false]
  | some w => simp only [RegFile.apply, RegFile.read_write]

end Sys2Proof.Machine
end

