-- ==== Sys2Proof/Laws/Memory.lean ====
section
/-! SUPPORT. Memory cells: a read after a write, a write leaves every other byte alone, and every write keeps the canonical
form. -/

namespace Sys2Proof.Machine

theorem readByte_dropCell (m : List Host.Cell) (a x : Nat) :
    readByte (dropCell a m) x = if x = a then unlistedByte else readByte m x := by
  induction m with
  | nil => simp [dropCell, readByte]
  | cons c rest ih =>
    obtain ⟨k, b⟩ := c
    by_cases hk : k = a <;> by_cases hx : k = x <;> simp_all [dropCell, readByte]

theorem mem_dropCell {m : List Host.Cell} {a : Nat} {c : Host.Cell} (h : c ∈ dropCell a m) : c ∈ m ∧ c.1 ≠ a := by
  induction m with
  | nil => simp [dropCell] at h
  | cons d rest ih =>
    obtain ⟨k, b⟩ := d
    by_cases hk : k = a
    · simp only [dropCell, hk, if_true] at h
      exact ⟨List.mem_cons_of_mem _ (ih h).1, (ih h).2⟩
    · simp only [dropCell, hk, if_false, List.mem_cons] at h
      rcases h with rfl | h
      · exact ⟨List.mem_cons_self, hk⟩
      · exact ⟨List.mem_cons_of_mem _ (ih h).1, (ih h).2⟩

theorem mem_insertCell {m : List Host.Cell} {a : Nat} {v : Byte} {c : Host.Cell} (h : c ∈ insertCell a v m) :
    c = (a, v) ∨ c ∈ m := by
  induction m with
  | nil => simpa [insertCell] using h
  | cons d rest ih =>
    obtain ⟨k, b⟩ := d
    by_cases hk : a < k
    · simp only [insertCell, hk, if_true, List.mem_cons] at h
      simpa using h
    · simp only [insertCell, hk, if_false, List.mem_cons] at h
      rcases h with h | h
      · exact .inr (by simp [h])
      · exact (ih h).imp id (List.mem_cons_of_mem _)

theorem readByte_insertCell (m : List Host.Cell) (a x : Nat) (v : Byte) (h : ∀ c ∈ m, c.1 ≠ a) :
    readByte (insertCell a v m) x = if x = a then v else readByte m x := by
  induction m with
  | nil =>
    by_cases hx : x = a
    · simp [insertCell, readByte, hx]
    · simp [insertCell, readByte, hx, Ne.symm hx]
  | cons d rest ih =>
    obtain ⟨k, b⟩ := d
    have hk : k ≠ a := h (k, b) List.mem_cons_self
    have ih := ih (fun c hc => h c (List.mem_cons_of_mem _ hc))
    by_cases hlt : a < k
    · by_cases hx : x = a
      · simp [insertCell, hlt, readByte, hx]
      · simp [insertCell, hlt, readByte, hx, Ne.symm hx]
    · by_cases hx : k = x
      · subst hx
        simp [insertCell, hlt, readByte, hk]
      · simp [insertCell, hlt, readByte, hx, ih]

/-- A read after a write: the byte written at its address, every other byte as before. -/
theorem readByte_writeByte (m : List Host.Cell) (a x : Nat) (v : Byte) :
    readByte (writeByte m a v) x = if x = a then v else readByte m x := by
  unfold writeByte
  split
  · next h => rw [readByte_dropCell, h]
  · rw [readByte_insertCell _ _ _ _ (fun c hc => (mem_dropCell hc).2), readByte_dropCell]
    split <;> rfl

/-- A write leaves the bytes outside the stored ones alone. -/
theorem readByte_writeBytes_of_outside (m : List Host.Cell) (a x : Nat) (bs : List Byte)
    (h : x < a ∨ a + bs.length ≤ x) : readByte (writeBytes m a bs) x = readByte m x := by
  induction bs generalizing m a with
  | nil => rfl
  | cons b rest ih =>
    simp only [List.length_cons] at h
    rw [writeBytes, ih _ _ (by omega), readByte_writeByte, if_neg (by omega)]

/-- A stored byte reads back. -/
theorem readByte_writeBytes (m : List Host.Cell) (a : Nat) (bs : List Byte) (k : Nat) (h : k < bs.length) :
    readByte (writeBytes m a bs) (a + k) = bs[k] := by
  induction bs generalizing m a k with
  | nil => simp at h
  | cons b rest ih =>
    rw [writeBytes]
    cases k with
    | zero =>
      rw [readByte_writeBytes_of_outside _ _ _ _ (by omega), readByte_writeByte]
      simp
    | succ k =>
      have := ih (writeByte m a b) (a + 1) k (by simpa using h)
      rw [show a + (k + 1) = a + 1 + k by omega, this]
      simp

theorem dropCell_pairwise {m : List Host.Cell} (a : Nat) (h : m.Pairwise (fun x y => x.1 < y.1)) :
    (dropCell a m).Pairwise (fun x y => x.1 < y.1) := by
  induction m with
  | nil => simp [dropCell]
  | cons d rest ih =>
    obtain ⟨k, b⟩ := d
    rw [List.pairwise_cons] at h
    by_cases hk : k = a
    · simpa [dropCell, hk] using ih h.2
    · simp only [dropCell, hk, if_false, List.pairwise_cons]
      exact ⟨fun c hc => h.1 c (mem_dropCell hc).1, ih h.2⟩

theorem insertCell_pairwise {m : List Host.Cell} (a : Nat) (v : Byte) (h : m.Pairwise (fun x y => x.1 < y.1))
    (hne : ∀ c ∈ m, c.1 ≠ a) : (insertCell a v m).Pairwise (fun x y => x.1 < y.1) := by
  induction m with
  | nil => simp [insertCell]
  | cons d rest ih =>
    obtain ⟨k, b⟩ := d
    have hk : k ≠ a := hne (k, b) List.mem_cons_self
    have h' := List.pairwise_cons.1 h
    by_cases hlt : a < k
    · simp only [insertCell, hlt, if_true, List.pairwise_cons]
      refine ⟨fun c hc => ?_, h'⟩
      rcases List.mem_cons.1 hc with rfl | hc
      · exact hlt
      · exact Nat.lt_trans hlt (h'.1 c hc)
    · simp only [insertCell, hlt, if_false, List.pairwise_cons]
      refine ⟨fun c hc => ?_, ih h'.2 (fun c hc => hne c (List.mem_cons_of_mem _ hc))⟩
      rcases mem_insertCell hc with rfl | hc
      · show k < a
        omega
      · exact h'.1 c hc

/-- Every byte write keeps the canonical form. -/
theorem writeByte_wf {m : List Host.Cell} (a : Nat) (v : Byte) (h : Memory.wf m) : Memory.wf (writeByte m a v) := by
  unfold writeByte
  split
  · exact ⟨dropCell_pairwise a h.1, fun c hc => h.2 c (mem_dropCell hc).1⟩
  · next hv =>
    refine ⟨insertCell_pairwise a v (dropCell_pairwise a h.1) (fun c hc => (mem_dropCell hc).2), fun c hc => ?_⟩
    rcases mem_insertCell hc with rfl | hc
    · exact hv
    · exact h.2 c (mem_dropCell hc).1

theorem writeBytes_wf {m : List Host.Cell} (a : Nat) (bs : List Byte) (h : Memory.wf m) :
    Memory.wf (writeBytes m a bs) := by
  induction bs generalizing m a with
  | nil => exact h
  | cons b rest ih => exact ih (a + 1) (writeByte_wf a b h)

/-- Every memory write keeps the canonical form. -/
theorem writeMem_wf {m : List Host.Cell} (a : Nat) (w : Width) (v : Word) (h : Memory.wf m) :
    Memory.wf (writeMem m a w v) := writeBytes_wf a _ h

/-- Memory after reset has the canonical form. -/
theorem reset_mem_wf : Memory.wf State.reset.mem := by decide

/-- A cell listed after a byte write was listed before or is the one written. -/
theorem mem_writeByte {m : List Host.Cell} {a : Nat} {v : Byte} {c : Host.Cell} (h : c ∈ writeByte m a v) :
    c.1 = a ∨ c ∈ m := by
  unfold writeByte at h
  split at h
  · exact .inr (mem_dropCell h).1
  · rcases mem_insertCell h with rfl | h
    · exact .inl rfl
    · exact .inr (mem_dropCell h).1

/-- A cell listed after a write was listed before or is among the bytes written. -/
theorem mem_writeBytes {m : List Host.Cell} {a : Nat} {bs : List Byte} {c : Host.Cell} (h : c ∈ writeBytes m a bs) :
    (a ≤ c.1 ∧ c.1 < a + bs.length) ∨ c ∈ m := by
  induction bs generalizing m a with
  | nil => exact .inr h
  | cons b rest ih =>
    rcases ih h with h | h
    · exact .inl (by simp only [List.length_cons]; omega)
    · rcases mem_writeByte h with h | h
      · exact .inl (by simp only [List.length_cons]; omega)
      · exact .inr h

@[simp] theorem length_storedBytes (w : Width) (v : Word) : (storedBytes w v).length = widthBytes w := by
  cases w <;> rfl

theorem mem_writeMem {m : List Host.Cell} {a : Nat} {w : Width} {v : Word} {c : Host.Cell} (h : c ∈ writeMem m a w v) :
    (a ≤ c.1 ∧ c.1 < a + widthBytes w) ∨ c ∈ m := by
  simpa using mem_writeBytes h

/-- A memory write leaves the bytes outside the stored ones alone. -/
theorem readByte_writeMem_of_outside (m : List Host.Cell) (a x : Nat) (w : Width) (v : Word)
    (h : x < a ∨ a + widthBytes w ≤ x) : readByte (writeMem m a w v) x = readByte m x :=
  readByte_writeBytes_of_outside m a x _ (by simpa using h)

end Sys2Proof.Machine
end

