-- ==== Sys2Proof/Laws/Bus.lean ====
section
/-! SUPPORT. What a bus access can do: the state a read or a write answers, and what neither of them touches. -/

namespace Sys2Proof.Machine

/-- Everything a bus read can do to the state: nothing (an unmapped address), count a handler call, or take a free value from an
external window. -/
theorem memRead_ok {a : Word} {w : Width} {s s' : State} {v : Word} (h : memRead a w s = .ok (v, s')) :
    s' = s ∨ (∃ hd, s' = noteCall hd s) ∨
      ∃ win off, s' = noteCall (.external win) (emit (.busRead win.id off w) (noteDraw s)) := by
  have unmapped : ∀ p, unmappedRead p w s = .ok (v, s') → s' = s := by
    intro p hp
    unfold unmappedRead at hp
    split at hp <;> simp_all
  unfold memRead at h
  split at h
  · exact .inl (unmapped _ h)
  · unfold entryRead at h
    split at h
    · simp only [externalRead, Except.ok.injEq, Prod.mk.injEq] at h
      exact .inr (.inr ⟨_, _, h.2.symm⟩)
    · split at h
      · simp only [Except.ok.injEq, Prod.mk.injEq] at h
        exact .inr (.inl ⟨_, h.2.symm⟩)
      · exact .inl (unmapped _ h)
      · simp at h

/-- Everything a bus write can do to the state: nothing (dropped), an event to an external device, or the write of a core
handler. -/
theorem memWrite_ok {a : Word} {w : Width} {s s' : State} {v : Word} (h : memWrite a w v s = .ok s') :
    s' = s ∨ (∃ win ev, s' = noteCall (.external win) (emit ev s)) ∨
      ∃ e s1, lookup s.cfg (physAddr a).toNat (segmentOf a) = some e ∧
        coreWrite e.handler ((physAddr a).toNat - e.base) w v s = .done s1 ∧ s' = noteCall e.handler s1 := by
  have unmapped : ∀ p, unmappedWrite p w s = .ok s' → s' = s := by
    intro p hp
    unfold unmappedWrite at hp
    split at hp <;> simp_all
  unfold memWrite at h
  split at h
  · exact .inl (unmapped _ h)
  · next e he =>
    unfold entryWrite at h
    split at h
    · simp only [externalWrite, Except.ok.injEq] at h
      exact .inr (.inl ⟨_, _, h.symm⟩)
    · split at h
      · next s1 hs1 =>
        simp only [Except.ok.injEq] at h
        exact .inr (.inr ⟨e, s1, he, hs1, h.symm⟩)
      · exact .inl (unmapped _ h)
      · simp at h

/-- What no bus access touches: the CPU, COP0, the configuration and the schedule. -/
abbrev BusFrame (s t : State) : Prop :=
  t = { s with
    mem := t.mem, cacheCtl := t.cacheCtl, dma := t.dma, dpcr := t.dpcr, dicr := t.dicr, iStat := t.iStat,
    iMask := t.iMask, cycles := t.cycles, busCalls := t.busCalls, draws := t.draws, emitted := t.emitted }

theorem memRead_frame {a : Word} {w : Width} {s s' : State} {v : Word} (h : memRead a w s = .ok (v, s')) :
    BusFrame s s' := by
  rcases memRead_ok h with rfl | ⟨hd, rfl⟩ | ⟨win, off, rfl⟩ <;> rfl

/-- A bus read leaves memory and every device register alone. -/
theorem memRead_devices {a : Word} {w : Width} {s s' : State} {v : Word} (h : memRead a w s = .ok (v, s')) :
    s' = { s with cycles := s'.cycles, busCalls := s'.busCalls, draws := s'.draws, emitted := s'.emitted } := by
  rcases memRead_ok h with rfl | ⟨hd, rfl⟩ | ⟨win, off, rfl⟩ <;> rfl

theorem transferFault_frame (n : Chan) (r : DmaFault) (s : State) : BusFrame s (transferFault n r s) := rfl

theorem writeChcr_frame (n : Chan) (v : Word) (s : State) : BusFrame s (writeChcr n v s) := by
  unfold writeChcr
  dsimp only
  split
  · rfl
  · split
    · rfl
    · split <;> rfl

theorem writeDicr_frame (v : Word) (s : State) : BusFrame s (writeDicr v s) := by
  unfold writeDicr
  dsimp only
  split <;> rfl

theorem dmaRegStore_frame (r : DmaReg) (v : Word) (s : State) : BusFrame s (dmaRegStore r v s) := by
  cases r with
  | chcr n => exact writeChcr_frame n v s
  | dicr => exact writeDicr_frame v s
  | _ => rfl

theorem irqStore_frame (off : Nat) (v : Word) (s : State) : BusFrame s (irqStore off v s) := by
  unfold irqStore
  split <;> rfl

theorem coreWrite_frame {h : Handler} {off : Nat} {w : Width} {v : Word} {s s' : State}
    (e : coreWrite h off w v s = .done s') : BusFrame s s' := by
  cases h with
  | ram | spad | bios => simp only [coreWrite, WriteReply.done.injEq] at e; subst e; rfl
  | irq =>
    simp only [coreWrite, irqWrite] at e
    split at e
    · simp at e
    · simp only [WriteReply.done.injEq] at e
      subst e
      split
      · exact irqStore_frame _ _ _
      · rfl
    · simp only [WriteReply.done.injEq] at e
      subst e
      exact irqStore_frame _ _ _
  | dma =>
    simp only [coreWrite, dmaWrite] at e
    split at e
    · simp at e
    · split at e
      · simp only [WriteReply.done.injEq] at e
        subst e
        exact dmaRegStore_frame _ _ _
      · simp at e
  | cacheCtl =>
    simp only [coreWrite] at e
    split at e
    · simp only [WriteReply.done.injEq] at e
      subst e
      rfl
    · simp at e
  | external w => simp [coreWrite] at e

theorem memWrite_frame {a : Word} {w : Width} {s s' : State} {v : Word} (h : memWrite a w v s = .ok s') :
    BusFrame s s' := by
  rcases memWrite_ok h with rfl | ⟨win, ev, rfl⟩ | ⟨e, s1, _, hc, rfl⟩
  · rfl
  · rfl
  · have := coreWrite_frame hc
    rw [this]
    rfl

/-- A property every byte write keeps is kept by a sequence of them. -/
theorem writeEach_preserves {P : State → Prop}
    (hw : ∀ {a v s s'}, memWrite a .b8 v s = .ok s' → P s → P s') {a : Word} {bs : List (Nat × Byte)} {s s' : State}
    (h : writeEach a bs s = .ok s') (hs : P s) : P s' := by
  induction bs generalizing s with
  | nil =>
    simp only [writeEach, Except.ok.injEq] at h
    exact h ▸ hs
  | cons b rest ih =>
    obtain ⟨j, b⟩ := b
    simp only [writeEach] at h
    split at h
    · simp at h
    · next s1 h1 => exact ih h (hw h1 hs)

/-- The aligned word of an address is a multiple of 4. -/
theorem alignedWord_aligned (ea : Word) : misaligned (alignedWord ea) .b32 = false := by
  have : (alignedWord ea).toNat % 4 = 0 := by
    have h2 : (alignedWord ea).setWidth 2 = 0#2 := by
      simp [alignedWord, BitVec.setWidth_and]
    have := congrArg BitVec.toNat h2
    simpa using this
  simp [misaligned, widthBytes, this]

/-- No byte access is misaligned. -/
theorem misaligned_b8 (ea : Word) : misaligned ea .b8 = false := by simp [misaligned, widthBytes, Nat.mod_one]

end Sys2Proof.Machine
end

