-- ==== Sys2Proof/Laws/Access.lean ====
section
/-! SUPPORT. A bus access at an address that reaches RAM, SPAD or BIOS: the value read, the memory left, and the word seen as its
four bytes. -/

namespace Sys2Proof.Machine

/-- The entry and the cell behind `memoryAt`. -/
theorem memoryAt_entry {cfg : Params} {x : Word} {h : Handler} {a : Nat} (hm : memoryAt cfg x = some (h, a)) :
    ∃ e, lookup cfg (physAddr x).toNat (segmentOf x) = some e ∧ e.handler = h ∧
      cellOf h ((physAddr x).toNat - e.base) = some a := by
  unfold memoryAt at hm
  split at hm
  · simp at hm
  · next e he =>
    cases hc : cellOf e.handler ((physAddr x).toNat - e.base) with
    | none => simp [hc] at hm
    | some b =>
      simp only [hc, Option.map_some, Option.some.injEq, Prod.mk.injEq] at hm
      exact ⟨e, he, hm.1, by rw [← hm.1, hc, hm.2]⟩

/-- A read of RAM, SPAD or BIOS: the little-endian value at the cell, one handler call. -/
theorem memRead_memory {x : Word} {w : Width} {s : State} {h : Handler} {a : Nat} (hm : memoryAt s.cfg x = some (h, a)) :
    memRead x w s = .ok (readMem s.mem a w, noteCall h s) := by
  obtain ⟨e, he, hh, hc⟩ := memoryAt_entry hm
  unfold memRead
  rw [he]
  simp only [entryRead, hh]
  cases h <;> simp only [cellOf, Option.some.injEq, reduceCtorEq] at hc <;> subst hc <;> rfl

/-- A write of RAM, SPAD or BIOS: the cells become the little-endian bytes of the value, but for the BIOS, which ignores it;
one handler call. -/
theorem memWrite_memory {x v : Word} {w : Width} {s : State} {h : Handler} {a : Nat} (hm : memoryAt s.cfg x = some (h, a)) :
    memWrite x w v s = .ok (noteCall h { s with mem := if h = .bios then s.mem else writeMem s.mem a w v }) := by
  obtain ⟨e, he, hh, hc⟩ := memoryAt_entry hm
  unfold memWrite
  rw [he]
  simp only [entryWrite, hh]
  cases h <;> simp only [cellOf, Option.some.injEq, reduceCtorEq] at hc <;> subst hc <;> rfl

@[simp] theorem readMem_b32 (m : List Host.Cell) (a : Nat) : readMem m a .b32 = wordAt m a := rfl

/-- A byte after a little-endian write. -/
theorem readByte_writeMem (m : List Host.Cell) (a : Nat) (w : Width) (v : Word) (x : Nat) :
    readByte (writeMem m a w v) x =
      if a ≤ x ∧ x < a + widthBytes w then v.extractLsb' (8 * (x - a)) 8 else readByte m x := by
  split
  · next hx =>
    obtain ⟨k, rfl⟩ : ∃ k, x = a + k := ⟨x - a, by omega⟩
    have hk : k < widthBytes w := by omega
    rw [writeMem, readByte_writeBytes _ _ _ _ (by simpa using hk)]
    have hk4 : k < 4 := by
      cases w <;> simp only [widthBytes] at hk <;> omega
    simp only [storedBytes, List.getElem_take, Nat.add_sub_cancel_left]
    interval_cases k <;> rfl
  · next hx => exact readByte_writeMem_of_outside _ _ _ _ _ (by omega)

/-- The four bytes of a word make it up. -/
theorem word_bytes (v : Word) : v.extractLsb' 24 8 ++ v.extractLsb' 16 8 ++ v.extractLsb' 8 8 ++ v.extractLsb' 0 8 = v := by
  apply BitVec.eq_of_getLsbD_eq
  intro i hi
  have hi' : i < 32 := hi
  simp only [BitVec.getLsbD_append, BitVec.getLsbD_extractLsb']
  interval_cases i <;> simp

/-- A word read after it is written. -/
theorem wordAt_writeMem (m : List Host.Cell) (a : Nat) (v : Word) : wordAt (writeMem m a .b32 v) a = v := by
  conv_rhs => rw [← word_bytes v]
  simp [wordAt, readByte_writeMem, widthBytes]

/-- A word read after another, disjoint one is written. -/
theorem wordAt_writeMem_of_disjoint (m : List Host.Cell) (a b : Nat) (v : Word) (h : a + 4 ≤ b ∨ b + 4 ≤ a) :
    wordAt (writeMem m a .b32 v) b = wordAt m b := by
  have out : ∀ x, b ≤ x → x < b + 4 → readByte (writeMem m a .b32 v) x = readByte m x := fun x h1 h2 =>
    readByte_writeMem_of_outside m a x .b32 v (by simp only [widthBytes]; omega)
  rw [wordAt, out _ (by omega) (by omega), out _ (by omega) (by omega), out _ (by omega) (by omega),
    out _ (by omega) (by omega), wordAt]

/-! Segments as ranges of numbers. -/

theorem segment_field (v : Word) : (v.extractLsb' 29 3).toNat = v.toNat / 2 ^ 29 := by
  have := v.isLt
  rw [BitVec.extractLsb'_toNat, Nat.shiftRight_eq_div_pow, Nat.mod_eq_of_lt (by omega)]

theorem physAddr_kuseg {v : Word} (h : v.toNat < 0x80000000) : segmentOf v = .kuseg ∧ (physAddr v).toNat = v.toNat := by
  have hs : segmentOf v = .kuseg := by
    unfold segmentOf
    have hf := segment_field v
    have : v.toNat / 2 ^ 29 < 4 := by omega
    generalize (v.extractLsb' 29 3).toNat = k at hf
    subst hf
    interval_cases v.toNat / 2 ^ 29 <;> rfl
  refine ⟨hs, ?_⟩
  rw [physAddr, hs, regionMask, show (0xFFFFFFFF#32) = BitVec.allOnes 32 by rfl, BitVec.and_allOnes]

theorem physAddr_kseg0 {v : Word} (h0 : 0x80000000 ≤ v.toNat) (h1 : v.toNat < 0xA0000000) :
    segmentOf v = .kseg0 ∧ (physAddr v).toNat = v.toNat - 0x80000000 := by
  have hs : segmentOf v = .kseg0 := by
    unfold segmentOf
    rw [segment_field, show v.toNat / 2 ^ 29 = 4 by omega]
    rfl
  refine ⟨hs, ?_⟩
  rw [physAddr, hs, regionMask, BitVec.toNat_and, show (0x7FFFFFFF#32).toNat = 2 ^ 31 - 1 by rfl, Nat.and_two_pow_sub_one_eq_mod]
  omega

theorem physAddr_kseg1 {v : Word} (h0 : 0xA0000000 ≤ v.toNat) (h1 : v.toNat < 0xC0000000) :
    segmentOf v = .kseg1 ∧ (physAddr v).toNat = v.toNat - 0xA0000000 := by
  have hs : segmentOf v = .kseg1 := by
    unfold segmentOf
    rw [segment_field, show v.toNat / 2 ^ 29 = 5 by omega]
    rfl
  refine ⟨hs, ?_⟩
  rw [physAddr, hs, regionMask, BitVec.toNat_and, show (0x1FFFFFFF#32).toNat = 2 ^ 29 - 1 by rfl, Nat.and_two_pow_sub_one_eq_mod]
  omega

theorem physAddr_kseg2 {v : Word} (h : 0xC0000000 ≤ v.toNat) : segmentOf v = .kseg2 ∧ (physAddr v).toNat = v.toNat := by
  have hs : segmentOf v = .kseg2 := by
    have hl := v.isLt
    unfold segmentOf
    rw [segment_field]
    rcases (by omega : v.toNat / 2 ^ 29 = 6 ∨ v.toNat / 2 ^ 29 = 7) with h | h <;> rw [h] <;> rfl
  refine ⟨hs, ?_⟩
  rw [physAddr, hs, regionMask, show (0xFFFFFFFF#32) = BitVec.allOnes 32 by rfl, BitVec.and_allOnes]

/-- The core map by number: which handler a physical address reaches before any external window. -/
theorem lookup_ram {cfg : Params} {p : Nat} {seg : Segment} (h : p < 0x00800000) (hs : seg ≠ .kseg2) :
    lookup cfg p seg = some ⟨0, 0x00800000, .ram, [.kuseg, .kseg0, .kseg1]⟩ := by
  have : entryCovers ⟨0, 0x00800000, .ram, [.kuseg, .kseg0, .kseg1]⟩ p seg = true := by
    cases seg <;> simp_all [entryCovers]
  simp [lookup, busMap, Layout.coreMap, Layout.ramWindow, this]

theorem lookup_spad {cfg : Params} {p : Nat} {seg : Segment} (h0 : 0x1F800000 ≤ p) (h1 : p < 0x1F800400)
    (hs : seg = .kuseg ∨ seg = .kseg0) : lookup cfg p seg = some ⟨0x1F800000, 0x400, .spad, [.kuseg, .kseg0]⟩ := by
  have h2 : ¬p < 0x00800000 := by omega
  have : entryCovers ⟨0x1F800000, 0x400, .spad, [.kuseg, .kseg0]⟩ p seg = true := by
    rcases hs with rfl | rfl <;> simp [entryCovers] <;> omega
  have n : ∀ l, entryCovers ⟨0, 0x00800000, .ram, l⟩ p seg = false := by
    intro l
    simp [entryCovers, h2]
  simp [lookup, busMap, Layout.coreMap, Layout.ramWindow, Layout.spadBase, Layout.spadSize, List.find?, this, n]

theorem lookup_bios {cfg : Params} {p : Nat} {seg : Segment} (h0 : 0x1FC00000 ≤ p) (h1 : p < 0x1FC80000)
    (hs : seg ≠ .kseg2) : lookup cfg p seg = some ⟨0x1FC00000, 0x80000, .bios, [.kuseg, .kseg0, .kseg1]⟩ := by
  have : entryCovers ⟨0x1FC00000, 0x80000, .bios, [.kuseg, .kseg0, .kseg1]⟩ p seg = true := by
    have : p < 0x1FC00000 + 0x80000 := by omega
    cases seg <;> simp [entryCovers] <;> first | omega | contradiction
  have n : ∀ b n h l, b + n ≤ 0x1FC00000 → entryCovers ⟨b, n, h, l⟩ p seg = false := by
    intro b n h l hb
    simp [entryCovers]
    omega
  simp [lookup, busMap, Layout.coreMap, Layout.ramWindow, Layout.spadBase, Layout.spadSize, Layout.irqBase, Layout.dmaBase,
    Layout.biosBase, Layout.biosSize, List.find?, this, n]

/-- The entry a lookup finds holds the address. -/
theorem lookup_covers {cfg : Params} {p : Nat} {seg : Segment} {e : BusEntry} (h : lookup cfg p seg = some e) :
    e ∈ busMap cfg ∧ e.base ≤ p ∧ p < e.base + e.size ∧ seg ∈ e.segs := by
  have hm := List.mem_of_find?_eq_some h
  have hp := List.find?_some h
  simp only [entryCovers, Bool.and_eq_true, decide_eq_true_eq, List.contains_iff_mem] at hp
  exact ⟨hm, hp.1.1, hp.1.2, hp.2⟩

/-- An address that reaches memory reaches RAM's window, the scratchpad or the BIOS. -/
theorem memoryAt_range {cfg : Params} {x : Word} {h : Handler} {a : Nat} (hm : memoryAt cfg x = some (h, a)) :
    let p := (physAddr x).toNat
    (h = .ram ∧ p < 0x00800000 ∧ a = p % 0x00200000 ∧ segmentOf x ≠ .kseg2) ∨
      (h = .spad ∧ 0x1F800000 ≤ p ∧ p < 0x1F800400 ∧ a = p ∧ (segmentOf x = .kuseg ∨ segmentOf x = .kseg0)) ∨
      (h = .bios ∧ 0x1FC00000 ≤ p ∧ p < 0x1FC80000 ∧ a = p ∧ segmentOf x ≠ .kseg2) := by
  obtain ⟨e, he, hh, hc⟩ := memoryAt_entry hm
  obtain ⟨hmem, h1, h2, h3⟩ := lookup_covers he
  simp only [busMap, Layout.coreMap, List.mem_append, List.mem_cons, List.not_mem_nil, or_false, List.mem_map] at hmem
  rcases hmem with (rfl | rfl | rfl | rfl | rfl | rfl) | ⟨w, _, rfl⟩
  all_goals
    subst hh
    simp only [cellOf, Option.some.injEq, reduceCtorEq] at hc
  all_goals
    simp only [List.mem_cons, List.not_mem_nil, or_false, Layout.ramWindow, Layout.spadBase, Layout.spadSize, Layout.biosBase,
      Layout.biosSize, Layout.ramSize, Nat.sub_zero] at h1 h2 h3 hc
  · left
    refine ⟨rfl, by omega, hc.symm, ?_⟩
    intro h
    simp [h] at h3
  · right; left
    exact ⟨rfl, h1, by omega, by omega, h3⟩
  · right; right
    refine ⟨rfl, h1, by omega, by omega, ?_⟩
    intro h
    simp [h] at h3

/-- What a physical address in RAM's window, the scratchpad or the BIOS reaches. -/
theorem memoryAt_of_range {cfg : Params} {x : Word} {p : Nat} {seg : Segment} (hs : segmentOf x = seg)
    (hp : (physAddr x).toNat = p) :
    (p < 0x00800000 → seg ≠ .kseg2 → memoryAt cfg x = some (.ram, p % 0x00200000)) ∧
      (0x1F800000 ≤ p → p < 0x1F800400 → (seg = .kuseg ∨ seg = .kseg0) → memoryAt cfg x = some (.spad, p)) ∧
      (0x1FC00000 ≤ p → p < 0x1FC80000 → seg ≠ .kseg2 → memoryAt cfg x = some (.bios, p)) := by
  refine ⟨fun h0 h1 => ?_, fun h0 h1 h2 => ?_, fun h0 h1 h2 => ?_⟩
  · rw [memoryAt, hs, hp, lookup_ram h0 h1]
    rfl
  · rw [memoryAt, hs, hp, lookup_spad h0 h1 h2]
    simp only [cellOf, Layout.spadBase, Option.map_some]
    rw [Nat.add_sub_cancel' h0]
  · rw [memoryAt, hs, hp, lookup_bios h0 h1 h2]
    simp only [cellOf, Layout.biosBase, Option.map_some]
    rw [Nat.add_sub_cancel' h0]

/-- The four bytes of an aligned word lie in one segment. -/
theorem physAddr_add {x : Word} {j : Nat} (hx : x.toNat % 4 = 0) (hj : j < 4) :
    segmentOf (x + BitVec.ofNat 32 j) = segmentOf x ∧
      (physAddr (x + BitVec.ofNat 32 j)).toNat = (physAddr x).toNat + j := by
  have hl := x.isLt
  have hy : (x + BitVec.ofNat 32 j).toNat = x.toNat + j := by
    rw [BitVec.toNat_add, BitVec.toNat_ofNat]
    omega
  by_cases h1 : x.toNat < 0x80000000
  · have a := physAddr_kuseg h1
    have b := physAddr_kuseg (v := x + BitVec.ofNat 32 j) (by omega)
    exact ⟨by rw [a.1, b.1], by rw [a.2, b.2, hy]⟩
  · by_cases h2 : x.toNat < 0xA0000000
    · have a := physAddr_kseg0 (by omega) h2
      have b := physAddr_kseg0 (v := x + BitVec.ofNat 32 j) (by omega) (by omega)
      exact ⟨by rw [a.1, b.1], by rw [a.2, b.2]; omega⟩
    · by_cases h3 : x.toNat < 0xC0000000
      · have a := physAddr_kseg1 (by omega) h3
        have b := physAddr_kseg1 (v := x + BitVec.ofNat 32 j) (by omega) (by omega)
        exact ⟨by rw [a.1, b.1], by rw [a.2, b.2]; omega⟩
      · have a := physAddr_kseg2 (v := x) (by omega)
        have b := physAddr_kseg2 (v := x + BitVec.ofNat 32 j) (by omega)
        exact ⟨by rw [a.1, b.1], by rw [a.2, b.2, hy]⟩

theorem physAddr_mod_four (x : Word) : (physAddr x).toNat % 4 = x.toNat % 4 := by
  by_cases h1 : x.toNat < 0x80000000
  · rw [(physAddr_kuseg h1).2]
  · by_cases h2 : x.toNat < 0xA0000000
    · rw [(physAddr_kseg0 (by omega) h2).2]
      omega
    · by_cases h3 : x.toNat < 0xC0000000
      · rw [(physAddr_kseg1 (by omega) h3).2]
        omega
      · rw [(physAddr_kseg2 (by omega)).2]

/-- The bytes of an aligned word of memory are at the cells after its own. -/
theorem memoryAt_add {cfg : Params} {x : Word} {h : Handler} {a j : Nat} (hm : memoryAt cfg x = some (h, a))
    (hx : x.toNat % 4 = 0) (hj : j < 4) : memoryAt cfg (x + BitVec.ofNat 32 j) = some (h, a + j) := by
  obtain ⟨hseg, hphys⟩ := physAddr_add hx hj
  have hp := physAddr_mod_four x
  have key := memoryAt_of_range (cfg := cfg) hseg hphys
  rcases memoryAt_range hm with ⟨rfl, h1, rfl, h2⟩ | ⟨rfl, h1, h2, rfl, h3⟩ | ⟨rfl, h1, h2, rfl, h3⟩
  · rw [key.1 (by omega) h2]
    congr 2
    omega
  · exact key.2.1 (by omega) (by omega) h3
  · exact key.2.2 (by omega) (by omega) h3

end Sys2Proof.Machine
end

