-- ==== Sys2Proof/Laws/Dma.lean ====
section
/-! SUPPORT. What a DMA unit can do: the channel registers after each named update, what a block transfer touches, and what no
unit touches. -/

namespace Sys2Proof.Machine

@[simp] theorem chan_setChan (n m : Chan) (c : Channel) (s : State) :
    (setChan n c s).chan m = if n = m then c else s.chan m := by
  simp only [State.chan, setChan, Vector.get_eq_getElem, Vector.getElem_set]
  by_cases h : n = m
  · simp [h]
  · have hv : n.val ≠ m.val := fun e => h (Fin.ext e)
    simp [h, hv]

@[simp] theorem setChan_setChan (n : Chan) (c d : Channel) (s : State) :
    setChan n c (setChan n d s) = setChan n c s := by
  simp [setChan]

/-- What moving words touches. -/
abbrev MoveFrame (s t : State) : Prop :=
  t = { s with mem := t.mem, cycles := t.cycles, draws := t.draws, emitted := t.emitted }

theorem MoveFrame.trans {s t u : State} (h : MoveFrame s t) (k : MoveFrame t u) : MoveFrame s u := by
  unfold MoveFrame at *
  rw [k, h]

theorem moveWord_frame (n : Chan) (fromRam : Bool) (a : Nat) (s : State) : MoveFrame s (moveWord n fromRam a s) := by
  cases fromRam <;> rfl

theorem moveBlock_frame (n : Chan) (fromRam : Bool) (a0 step : Int) (count i : Nat) (s : State) :
    MoveFrame s (moveBlock n fromRam a0 step count i s) := by
  induction count generalizing i s with
  | zero => rfl
  | succ k ih => exact (moveWord_frame _ _ _ _).trans (ih _ _)

theorem otcBlock_frame (a0 : Int) (count i : Nat) (s : State) : MoveFrame s (otcBlock a0 count i s) := by
  induction count generalizing i s with
  | zero => rfl
  | succ k ih => exact MoveFrame.trans (by rfl) (ih _ _)

theorem DmaFrame.refl (s : State) : DmaFrame s s := rfl

theorem DmaFrame.trans {s t u : State} (h : DmaFrame s t) (k : DmaFrame t u) : DmaFrame s u := by
  unfold DmaFrame at *
  rw [k, h]

theorem MoveFrame.dma {s t : State} (h : MoveFrame s t) : DmaFrame s t := by
  unfold MoveFrame DmaFrame at *
  rw [h]

theorem MoveFrame.chan {s t : State} (h : MoveFrame s t) (n : Chan) : t.chan n = s.chan n := by
  unfold MoveFrame at h
  rw [h]
  rfl

theorem setChan_frame (n : Chan) (c : Channel) (s : State) : DmaFrame s (setChan n c s) := rfl

theorem complete_frame (n : Chan) (s : State) : DmaFrame s (complete n s) := by
  unfold complete
  dsimp only
  split <;> rfl

/-- A unit touches nothing the CPU, COP0 or a device window owns. -/
theorem dmaUnit_frame (n : Chan) (s : State) : DmaFrame s (dmaUnit n s) := by
  unfold dmaUnit
  split
  · split
    · unfold otcUnit
      dsimp only
      split
      · exact (setChan_frame _ _ _).trans ((otcBlock_frame _ _ _ _).dma.trans (complete_frame _ _))
      · rfl
    · unfold manualUnit
      dsimp only
      split
      · exact (setChan_frame _ _ _).trans ((moveBlock_frame _ _ _ _ _ _ _).dma.trans (complete_frame _ _))
      · rfl
  · unfold requestUnit
    dsimp only
    split
    · rfl
    · split
      · rfl
      · split
        · exact (moveWord_frame _ _ _ _).dma.trans ((setChan_frame _ _ _).trans (complete_frame _ _))
        · exact (moveWord_frame _ _ _ _).dma.trans (setChan_frame _ _ _)
  · unfold linkedUnit
    dsimp only
    split
    · rfl
    · split
      · rfl
      · split
        · rfl
        · have hm : DmaFrame s (dmaTick s) := rfl
          have hb := hm.trans (moveBlock_frame n true (s.chan n).madr.toNat 4
            (headerCount (readMem s.mem (s.chan n).madr.toNat .b32)) 1 (dmaTick s)).dma
          split
          · exact hb.trans ((setChan_frame _ _ _).trans (complete_frame _ _))
          · split
            · exact hb.trans (setChan_frame _ _ _)
            · exact hb.trans (setChan_frame _ _ _)
  · rfl

/-- A DMA step touches nothing the CPU, COP0 or a device window owns. -/
theorem dmaStep_frame (s : State) : DmaFrame s (dmaStep s) := by
  unfold dmaStep
  split
  · rfl
  · exact dmaUnit_frame _ _

/-- The channel a unit may serve is one of the serviceable ones. -/
theorem arbitrate_mem {a : Arbiter} {dpcr : Word} {cs : List Chan} {n : Chan} (h : arbitrate a dpcr cs = some n) :
    n ∈ cs := by
  have fold : ∀ (l : List Chan) (k : Chan), l.foldl (firstByPriority dpcr) k = k ∨ l.foldl (firstByPriority dpcr) k ∈ l := by
    intro l
    induction l with
    | nil => exact fun k => .inl rfl
    | cons m rest ih =>
      intro k
      rw [List.foldl_cons]
      rcases ih (firstByPriority dpcr k m) with h | h
      · rw [h]
        unfold firstByPriority
        dsimp only
        split
        · exact .inl rfl
        · exact .inr List.mem_cons_self
      · exact .inr (List.mem_cons_of_mem _ h)
  unfold arbitrate at h
  split at h
  · simp at h
  · simp only [Option.some.injEq] at h
    simp [h]
  · split at h
    · simp only [Option.some.injEq] at h
      rcases fold _ _ with e | e
      · rw [← h, e]
        exact List.mem_cons_self
      · rw [← h]
        exact List.mem_cons_of_mem _ e
    · simp only [Option.some.injEq] at h
      rw [← h, List.getD_eq_getElem _ _ (Nat.mod_lt _ (by simp))]
      exact List.getElem_mem _

/-- A DMA step serves a serviceable channel (65_dma R418). -/
theorem nextChan_serviceable {s : State} {n : Chan} (h : nextChan s = some n) : serviceable s n = true :=
  (List.mem_filter.1 (arbitrate_mem h)).2

end Sys2Proof.Machine
end

