-- ==== Sys2Proof/Laws/Encoding.lean ====
section
/-! SUPPORT. The fields of a word assembled by each format, and the bits of it an opcode-table row fixes. -/

namespace Sys2Proof

@[simp] theorem opOf_rWord (rs rt rd : Reg) (shamt : BitVec 5) (funct : BitVec 6) : opOf (rWord rs rt rd shamt funct) = 0 := by
  apply BitVec.eq_of_getLsbD_eq
  intro i hi
  simp only [opOf, rWord, BitVec.getLsbD_extractLsb', BitVec.getLsbD_append]
  interval_cases i <;> simp

@[simp] theorem rsOf_rWord (rs rt rd : Reg) (shamt : BitVec 5) (funct : BitVec 6) : rsOf (rWord rs rt rd shamt funct) = rs := by
  apply BitVec.eq_of_getLsbD_eq
  intro i hi
  simp only [rsOf, rWord, BitVec.getLsbD_extractLsb', BitVec.getLsbD_append]
  interval_cases i <;> simp

@[simp] theorem rtOf_rWord (rs rt rd : Reg) (shamt : BitVec 5) (funct : BitVec 6) : rtOf (rWord rs rt rd shamt funct) = rt := by
  apply BitVec.eq_of_getLsbD_eq
  intro i hi
  simp only [rtOf, rWord, BitVec.getLsbD_extractLsb', BitVec.getLsbD_append]
  interval_cases i <;> simp

@[simp] theorem rdOf_rWord (rs rt rd : Reg) (shamt : BitVec 5) (funct : BitVec 6) : rdOf (rWord rs rt rd shamt funct) = rd := by
  apply BitVec.eq_of_getLsbD_eq
  intro i hi
  simp only [rdOf, rWord, BitVec.getLsbD_extractLsb', BitVec.getLsbD_append]
  interval_cases i <;> simp

@[simp] theorem shamtOf_rWord (rs rt rd : Reg) (shamt : BitVec 5) (funct : BitVec 6) : shamtOf (rWord rs rt rd shamt funct) = shamt := by
  apply BitVec.eq_of_getLsbD_eq
  intro i hi
  simp only [shamtOf, rWord, BitVec.getLsbD_extractLsb', BitVec.getLsbD_append]
  interval_cases i <;> simp

@[simp] theorem functOf_rWord (rs rt rd : Reg) (shamt : BitVec 5) (funct : BitVec 6) : functOf (rWord rs rt rd shamt funct) = funct := by
  apply BitVec.eq_of_getLsbD_eq
  intro i hi
  simp only [functOf, rWord, BitVec.getLsbD_extractLsb', BitVec.getLsbD_append]
  interval_cases i <;> simp

@[simp] theorem opOf_iWord (op : BitVec 6) (rs rt : Reg) (imm : BitVec 16) : opOf (iWord op rs rt imm) = op := by
  apply BitVec.eq_of_getLsbD_eq
  intro i hi
  simp only [opOf, iWord, BitVec.getLsbD_extractLsb', BitVec.getLsbD_append]
  interval_cases i <;> simp

@[simp] theorem rsOf_iWord (op : BitVec 6) (rs rt : Reg) (imm : BitVec 16) : rsOf (iWord op rs rt imm) = rs := by
  apply BitVec.eq_of_getLsbD_eq
  intro i hi
  simp only [rsOf, iWord, BitVec.getLsbD_extractLsb', BitVec.getLsbD_append]
  interval_cases i <;> simp

@[simp] theorem rtOf_iWord (op : BitVec 6) (rs rt : Reg) (imm : BitVec 16) : rtOf (iWord op rs rt imm) = rt := by
  apply BitVec.eq_of_getLsbD_eq
  intro i hi
  simp only [rtOf, iWord, BitVec.getLsbD_extractLsb', BitVec.getLsbD_append]
  interval_cases i <;> simp

@[simp] theorem immOf_iWord (op : BitVec 6) (rs rt : Reg) (imm : BitVec 16) : immOf (iWord op rs rt imm) = imm := by
  apply BitVec.eq_of_getLsbD_eq
  intro i hi
  simp only [immOf, iWord, BitVec.getLsbD_extractLsb', BitVec.getLsbD_append]
  interval_cases i <;> simp

@[simp] theorem opOf_jWord (op : BitVec 6) (target : BitVec 26) : opOf (jWord op target) = op := by
  apply BitVec.eq_of_getLsbD_eq
  intro i hi
  simp only [opOf, jWord, BitVec.getLsbD_extractLsb', BitVec.getLsbD_append]
  interval_cases i <;> simp

@[simp] theorem targetOf_jWord (op : BitVec 6) (target : BitVec 26) : targetOf (jWord op target) = target := by
  apply BitVec.eq_of_getLsbD_eq
  intro i hi
  simp only [targetOf, jWord, BitVec.getLsbD_extractLsb', BitVec.getLsbD_append]
  interval_cases i <;> simp

@[simp] theorem opOf_codeWord (code : BitVec 20) (funct : BitVec 6) : opOf (codeWord code funct) = 0 := by
  apply BitVec.eq_of_getLsbD_eq
  intro i hi
  simp only [opOf, codeWord, BitVec.getLsbD_extractLsb', BitVec.getLsbD_append]
  interval_cases i <;> simp

@[simp] theorem codeOf_codeWord (code : BitVec 20) (funct : BitVec 6) : codeOf (codeWord code funct) = code := by
  apply BitVec.eq_of_getLsbD_eq
  intro i hi
  simp only [codeOf, codeWord, BitVec.getLsbD_extractLsb', BitVec.getLsbD_append]
  interval_cases i <;> simp

@[simp] theorem functOf_codeWord (code : BitVec 20) (funct : BitVec 6) : functOf (codeWord code funct) = funct := by
  apply BitVec.eq_of_getLsbD_eq
  intro i hi
  simp only [functOf, codeWord, BitVec.getLsbD_extractLsb', BitVec.getLsbD_append]
  interval_cases i <;> simp

@[simp] theorem opOf_cop0MoveWord (rs rt rd : Reg) : opOf (cop0MoveWord rs rt rd) = 0x10#6 := by
  apply BitVec.eq_of_getLsbD_eq
  intro i hi
  simp only [opOf, cop0MoveWord, BitVec.getLsbD_extractLsb', BitVec.getLsbD_append]
  interval_cases i <;> simp

@[simp] theorem rsOf_cop0MoveWord (rs rt rd : Reg) : rsOf (cop0MoveWord rs rt rd) = rs := by
  apply BitVec.eq_of_getLsbD_eq
  intro i hi
  simp only [rsOf, cop0MoveWord, BitVec.getLsbD_extractLsb', BitVec.getLsbD_append]
  interval_cases i <;> simp

@[simp] theorem rtOf_cop0MoveWord (rs rt rd : Reg) : rtOf (cop0MoveWord rs rt rd) = rt := by
  apply BitVec.eq_of_getLsbD_eq
  intro i hi
  simp only [rtOf, cop0MoveWord, BitVec.getLsbD_extractLsb', BitVec.getLsbD_append]
  interval_cases i <;> simp

@[simp] theorem rdOf_cop0MoveWord (rs rt rd : Reg) : rdOf (cop0MoveWord rs rt rd) = rd := by
  apply BitVec.eq_of_getLsbD_eq
  intro i hi
  simp only [rdOf, cop0MoveWord, BitVec.getLsbD_extractLsb', BitVec.getLsbD_append]
  interval_cases i <;> simp

theorem rWord_and_funct (rs rt rd : Reg) (shamt : BitVec 5) (funct : BitVec 6) : rWord rs rt rd shamt funct &&& 0xFC00003F#32 = funct.setWidth 32 := by
  apply BitVec.eq_of_getLsbD_eq
  intro i hi
  have hi' : i < 32 := hi
  simp only [rWord, BitVec.getLsbD_and, BitVec.getLsbD_append, BitVec.getLsbD_setWidth]
  interval_cases i <;> simp

theorem codeWord_and_funct (code : BitVec 20) (funct : BitVec 6) : codeWord code funct &&& 0xFC00003F#32 = funct.setWidth 32 := by
  apply BitVec.eq_of_getLsbD_eq
  intro i hi
  have hi' : i < 32 := hi
  simp only [codeWord, BitVec.getLsbD_and, BitVec.getLsbD_append, BitVec.getLsbD_setWidth]
  interval_cases i <;> simp

theorem iWord_and_op (op : BitVec 6) (rs rt : Reg) (imm : BitVec 16) : iWord op rs rt imm &&& 0xFC000000#32 = op ++ 0#26 := by
  apply BitVec.eq_of_getLsbD_eq
  intro i hi
  have hi' : i < 32 := hi
  simp only [iWord, BitVec.getLsbD_and, BitVec.getLsbD_append]
  interval_cases i <;> simp

theorem iWord_and_oprt (op : BitVec 6) (rs rt : Reg) (imm : BitVec 16) : iWord op rs rt imm &&& 0xFC1F0000#32 = op ++ 0#5 ++ rt ++ 0#16 := by
  apply BitVec.eq_of_getLsbD_eq
  intro i hi
  have hi' : i < 32 := hi
  simp only [iWord, BitVec.getLsbD_and, BitVec.getLsbD_append]
  interval_cases i <;> simp

theorem jWord_and_op (op : BitVec 6) (target : BitVec 26) : jWord op target &&& 0xFC000000#32 = op ++ 0#26 := by
  apply BitVec.eq_of_getLsbD_eq
  intro i hi
  have hi' : i < 32 := hi
  simp only [jWord, BitVec.getLsbD_and, BitVec.getLsbD_append]
  interval_cases i <;> simp

theorem cop0MoveWord_and_rs (rs rt rd : Reg) : cop0MoveWord rs rt rd &&& 0xFFE00000#32 = 0x10#6 ++ rs ++ 0#21 := by
  apply BitVec.eq_of_getLsbD_eq
  intro i hi
  have hi' : i < 32 := hi
  simp only [cop0MoveWord, BitVec.getLsbD_and, BitVec.getLsbD_append]
  interval_cases i <;> simp

end Sys2Proof
end

