-- ==== Sys2Proof/Laws/Exec.lean ====
section
/-! SUPPORT. What an instruction can do, said once: a property kept by retiring, by entering an exception, by the bus accesses an
instruction makes and by its COP0 writes is kept by every instruction, and by the CPU step around it. -/

namespace Sys2Proof.Machine

/-- When an exception is entered, the entry is `excEntry`. -/
theorem enterException_next {x : Exc} {s t : State} (h : enterException x s = .next t) : t = excEntry x s := by
  unfold enterException at h
  split at h
  · simp at h
  · exact (Host.Outcome.next.inj h).symm

theorem enterException_of_nestOk {s : State} (x : Exc) (h : nestOk s = true) :
    enterException x s = .next (excEntry x s) := by
  unfold enterException
  rw [if_neg]
  rintro ⟨h1, h2⟩
  simp [nestOk, h1, h2] at h

/-- What a property must be kept by for every instruction to keep it. -/
structure Kept (P : State → Prop) : Prop where
  retire : ∀ e s, P s → P (retire e s)
  exc : ∀ x s, P s → P (excEntry x s)
  read : ∀ {a w s v s'}, memRead a w s = .ok (v, s') → P s → P s'
  write : ∀ {a w v s s'}, misaligned a w = false → memWrite a w v s = .ok s' → P s → P s'
  cop0 : ∀ {rd v s s'}, cop0Write rd v s = .ok s' → P s → P s'
  leave : ∀ s, P s → P (leaveException s)

variable {P : State → Prop}

theorem Kept.enter (k : Kept P) {x : Exc} {s t : State} (hs : P s) (h : enterException x s = .next t) : P t :=
  enterException_next h ▸ k.exc x s hs

theorem Kept.retireWith (k : Kept P) {r : Reg} {v : Word} {s t : State} (hs : P s)
    (h : retireWith r v s = .next t) : P t := Host.Outcome.next.inj h ▸ k.retire _ s hs

theorem Kept.retireUnless (k : Kept P) {o : Bool} {r : Reg} {v : Word} {s t : State} (hs : P s)
    (h : retireUnless o r v s = .next t) : P t := by
  unfold Machine.retireUnless at h
  split at h
  · exact k.enter hs h
  · exact k.retireWith hs h

/-- What follows the reads runs only when they all find a value. -/
theorem afterRead_next {ok : Bool} {run : Result} {t : State} (h : afterRead ok run = .next t) : ok = true ∧ run = .next t := by
  cases ok with
  | true => exact ⟨rfl, h⟩
  | false => simp [afterRead] at h

@[simp] theorem afterRead_true (run : Result) : afterRead true run = run := rfl

@[simp] theorem afterRead_false (run : Result) : afterRead false run = .fault .unwrittenRead := rfl

/-- Under the policy `draw` every register can be read (10_state R31). -/
theorem canReadAll_of_draw {s : State} (h : s.cfg.unwritten = .draw) (rs : List Reg) : canReadAll s rs = true := by
  simp [canReadAll, canRead, h]

/-- The instructions that end by retiring in their own state keep a property. -/
theorem Kept.retired (k : Kept P) {e : Effect} {s t : State} (hs : P s) (h : (.next (Machine.retire e s) : Result) = .next t) :
    P t := Host.Outcome.next.inj h ▸ k.retire _ s hs

theorem Kept.checkHiLo (k : Kept P) {ok : Bool} {e : Effect} {s t : State} (hs : P s)
    (h : checkHiLo s (afterRead ok (.next (Machine.retire e s))) = .next t) : P t := by
  unfold Machine.checkHiLo at h
  split at h
  · simp at h
  · exact k.retired hs (afterRead_next h).2

theorem Kept.loadVia (k : Kept P) {chk w : Width} {ea a : Word} {rt : Reg} {m : Bool} {f : Word → Word} {s t : State}
    (hs : P s) (h : loadVia chk w ea a rt m f s = .next t) : P t := by
  unfold Machine.loadVia at h
  split at h
  · exact k.enter hs h
  · split at h
    · simp at h
    · split at h
      · simp at h
      · next v s' hr => exact k.retired (k.read hr hs) (afterRead_next h).2

theorem Kept.storeVia (k : Kept P) {chk : Width} {ea : Word} {rt : Reg} {put : State → Except Fault State} {s t : State}
    (hs : P s) (hput : ∀ s', addrFault ea chk s = false → put s = .ok s' → P s')
    (h : storeVia chk ea rt put s = .next t) : P t := by
  unfold Machine.storeVia at h
  split at h
  · exact k.enter hs h
  · next hf =>
    split at h
    · exact k.retired hs h
    · have h := (afterRead_next h).2
      split at h
      · simp at h
      · next s' hp => exact k.retired (hput s' (by simpa using hf) hp) h

theorem not_misaligned_of_addrFault {ea : Word} {w : Width} {s : State} (h : addrFault ea w s = false) :
    misaligned ea w = false := by
  simp only [addrFault, Bool.or_eq_false_iff] at h
  exact h.1

theorem Kept.storeBytes (k : Kept P) {ea : Word} {bs : List (Nat × Byte)} {r : Word} {s s' : State} (hs : P s)
    (h : storeBytes (alignedWord ea) bs r s = .ok s') : P s' := by
  unfold Machine.storeBytes at h
  split at h
  · exact k.write (alignedWord_aligned ea) h hs
  · exact writeEach_preserves (fun hw => k.write (misaligned_b8 _) hw) h hs

theorem Kept.ifUsable (k : Kept P) {z : BitVec 2} {run : Result} {s t : State} (hs : P s)
    (hrun : run = .next t → P t) (h : ifUsable z s run = .next t) : P t := by
  unfold Machine.ifUsable at h
  split at h
  · exact hrun h
  · exact k.enter hs h

theorem Kept.copGroup (k : Kept P) {z : BitVec 2} {s t : State} (hs : P s) (h : copGroup z s = .next t) : P t :=
  k.ifUsable hs (fun h => by simp at h) h

/-- Every instruction keeps a property that its parts keep. -/
theorem Kept.exec (k : Kept P) {i : Instr} {s t : State} (hs : P s) (h : exec i s = .next t) : P t := by
  cases i with
  | add rd rs rt | sub rd rs rt | addi rt rs imm => exact k.retireUnless hs (afterRead_next h).2
  | j target | jal target | lui rt imm => exact k.retired hs h
  | jr rs | beq rs rt imm | bne rs rt imm | blez rs imm | bgtz rs imm | bltz rs imm | bgez rs imm | mfhi rd | mflo rd =>
    exact k.retired hs (afterRead_next h).2
  | jalr rd rs =>
    simp only [Machine.exec, execJalr] at h
    split at h
    · simp at h
    · exact k.retired hs (afterRead_next h).2
  | bltzal rs imm =>
    simp only [Machine.exec, execBltzal] at h
    split at h
    · simp at h
    · exact k.retired hs (afterRead_next h).2
  | bgezal rs imm =>
    simp only [Machine.exec, execBgezal] at h
    split at h
    · simp at h
    · exact k.retired hs (afterRead_next h).2
  | mult rs rt | multu rs rt | div rs rt | divu rs rt | mthi rs | mtlo rs => exact k.checkHiLo hs h
  | lb rt base offset | lh rt base offset | lwl rt base offset | lw rt base offset | lbu rt base offset
  | lhu rt base offset | lwr rt base offset => exact k.loadVia hs (afterRead_next h).2
  | sb rt base offset | sh rt base offset | sw rt base offset =>
    exact k.storeVia hs (fun s' hf hp => k.write (not_misaligned_of_addrFault hf) hp hs) (afterRead_next h).2
  | swl rt base offset | swr rt base offset => exact k.storeVia hs (fun s' _ hp => k.storeBytes hs hp) (afterRead_next h).2
  | mfc0 rt rd =>
    refine k.ifUsable hs (fun h => ?_) h
    split at h
    · simp at h
    · exact k.retired hs h
  | mtc0 rt rd =>
    refine k.ifUsable hs (fun h => ?_) h
    have h := (afterRead_next h).2
    split at h
    · simp at h
    · next s' hw => exact k.retired (k.cop0 hw hs) h
  | rfe => exact k.ifUsable hs (fun h => k.retired (k.leave s hs) h) h
  | cop1 c | cop2 c | cop3 c => exact k.copGroup hs h
  | lwc0 rt base offset | lwc1 rt base offset | lwc2 rt base offset | lwc3 rt base offset | swc0 rt base offset
  | swc1 rt base offset | swc2 rt base offset | swc3 rt base offset => exact k.copGroup hs h
  | syscall c | brk c => exact k.enter hs h
  | _ => exact k.retireWith hs (afterRead_next h).2

theorem Kept.runDecoded (k : Kept P) {d : Decoded} {s t : State} (hs : P s) (h : runDecoded d s = .next t) : P t := by
  cases d with
  | instr i =>
    simp only [Machine.runDecoded] at h
    split at h
    · simp at h
    · exact k.exec hs h
  | reserved => exact k.enter hs h
  | otherRegimm => simp [Machine.runDecoded] at h
  | otherCop0 => exact k.ifUsable hs (fun h => by simp at h) h

/-- A CPU step keeps a property that the parts of an instruction and the start of the step keep. -/
theorem Kept.cpuStep (k : Kept P) (hb : ∀ s, P s → P (beginCpu s)) {s t : State} (hs : P s)
    (h : cpuStep s = .next t) : P t := by
  have hs := hb s hs
  unfold Machine.cpuStep fetchAndRun at h
  split at h
  · exact k.enter hs h
  · split at h
    · exact k.enter hs h
    · split at h
      · simp at h
      · next w s' hr => exact k.runDecoded (k.read hr hs) h

end Sys2Proof.Machine
end

