-- ==== Sys2Proof/Laws/PerInstr.lean ====
section
/-! SUPPORT. The per-instruction family TableRow: the encoding of an instruction has, in the bits its row of
spec/opcode_table.json fixes (the row's mask), the value the row gives them (the row's match). -/

namespace Sys2Proof

/-- The mask of the instruction's row of spec/opcode_table.json. -/
def Instr.rowMask (i : Instr) : Word :=
  match i with
  | .sll _ _ _ => 0xFC00003F#32
  | .srl _ _ _ => 0xFC00003F#32
  | .sra _ _ _ => 0xFC00003F#32
  | .sllv _ _ _ => 0xFC00003F#32
  | .srlv _ _ _ => 0xFC00003F#32
  | .srav _ _ _ => 0xFC00003F#32
  | .jr _ => 0xFC00003F#32
  | .jalr _ _ => 0xFC00003F#32
  | .syscall _ => 0xFC00003F#32
  | .brk _ => 0xFC00003F#32
  | .mfhi _ => 0xFC00003F#32
  | .mthi _ => 0xFC00003F#32
  | .mflo _ => 0xFC00003F#32
  | .mtlo _ => 0xFC00003F#32
  | .mult _ _ => 0xFC00003F#32
  | .multu _ _ => 0xFC00003F#32
  | .div _ _ => 0xFC00003F#32
  | .divu _ _ => 0xFC00003F#32
  | .add _ _ _ => 0xFC00003F#32
  | .addu _ _ _ => 0xFC00003F#32
  | .sub _ _ _ => 0xFC00003F#32
  | .subu _ _ _ => 0xFC00003F#32
  | .and _ _ _ => 0xFC00003F#32
  | .or _ _ _ => 0xFC00003F#32
  | .xor _ _ _ => 0xFC00003F#32
  | .nor _ _ _ => 0xFC00003F#32
  | .slt _ _ _ => 0xFC00003F#32
  | .sltu _ _ _ => 0xFC00003F#32
  | .bltz _ _ => 0xFC1F0000#32
  | .bgez _ _ => 0xFC1F0000#32
  | .bltzal _ _ => 0xFC1F0000#32
  | .bgezal _ _ => 0xFC1F0000#32
  | .j _ => 0xFC000000#32
  | .jal _ => 0xFC000000#32
  | .beq _ _ _ => 0xFC000000#32
  | .bne _ _ _ => 0xFC000000#32
  | .blez _ _ => 0xFC000000#32
  | .bgtz _ _ => 0xFC000000#32
  | .addi _ _ _ => 0xFC000000#32
  | .addiu _ _ _ => 0xFC000000#32
  | .slti _ _ _ => 0xFC000000#32
  | .sltiu _ _ _ => 0xFC000000#32
  | .andi _ _ _ => 0xFC000000#32
  | .ori _ _ _ => 0xFC000000#32
  | .xori _ _ _ => 0xFC000000#32
  | .lui _ _ => 0xFC000000#32
  | .lb _ _ _ => 0xFC000000#32
  | .lh _ _ _ => 0xFC000000#32
  | .lwl _ _ _ => 0xFC000000#32
  | .lw _ _ _ => 0xFC000000#32
  | .lbu _ _ _ => 0xFC000000#32
  | .lhu _ _ _ => 0xFC000000#32
  | .lwr _ _ _ => 0xFC000000#32
  | .sb _ _ _ => 0xFC000000#32
  | .sh _ _ _ => 0xFC000000#32
  | .swl _ _ _ => 0xFC000000#32
  | .sw _ _ _ => 0xFC000000#32
  | .swr _ _ _ => 0xFC000000#32
  | .mfc0 _ _ => 0xFFE00000#32
  | .mtc0 _ _ => 0xFFE00000#32
  | .rfe => 0xFE00003F#32
  | .cop1 _ => 0xFC000000#32
  | .cop2 _ => 0xFC000000#32
  | .cop3 _ => 0xFC000000#32
  | .lwc0 _ _ _ => 0xFC000000#32
  | .lwc1 _ _ _ => 0xFC000000#32
  | .lwc2 _ _ _ => 0xFC000000#32
  | .lwc3 _ _ _ => 0xFC000000#32
  | .swc0 _ _ _ => 0xFC000000#32
  | .swc1 _ _ _ => 0xFC000000#32
  | .swc2 _ _ _ => 0xFC000000#32
  | .swc3 _ _ _ => 0xFC000000#32

/-- The match of the instruction's row of spec/opcode_table.json. -/
def Instr.rowMatch (i : Instr) : Word :=
  match i with
  | .sll _ _ _ => 0x00000000#32
  | .srl _ _ _ => 0x00000002#32
  | .sra _ _ _ => 0x00000003#32
  | .sllv _ _ _ => 0x00000004#32
  | .srlv _ _ _ => 0x00000006#32
  | .srav _ _ _ => 0x00000007#32
  | .jr _ => 0x00000008#32
  | .jalr _ _ => 0x00000009#32
  | .syscall _ => 0x0000000C#32
  | .brk _ => 0x0000000D#32
  | .mfhi _ => 0x00000010#32
  | .mthi _ => 0x00000011#32
  | .mflo _ => 0x00000012#32
  | .mtlo _ => 0x00000013#32
  | .mult _ _ => 0x00000018#32
  | .multu _ _ => 0x00000019#32
  | .div _ _ => 0x0000001A#32
  | .divu _ _ => 0x0000001B#32
  | .add _ _ _ => 0x00000020#32
  | .addu _ _ _ => 0x00000021#32
  | .sub _ _ _ => 0x00000022#32
  | .subu _ _ _ => 0x00000023#32
  | .and _ _ _ => 0x00000024#32
  | .or _ _ _ => 0x00000025#32
  | .xor _ _ _ => 0x00000026#32
  | .nor _ _ _ => 0x00000027#32
  | .slt _ _ _ => 0x0000002A#32
  | .sltu _ _ _ => 0x0000002B#32
  | .bltz _ _ => 0x04000000#32
  | .bgez _ _ => 0x04010000#32
  | .bltzal _ _ => 0x04100000#32
  | .bgezal _ _ => 0x04110000#32
  | .j _ => 0x08000000#32
  | .jal _ => 0x0C000000#32
  | .beq _ _ _ => 0x10000000#32
  | .bne _ _ _ => 0x14000000#32
  | .blez _ _ => 0x18000000#32
  | .bgtz _ _ => 0x1C000000#32
  | .addi _ _ _ => 0x20000000#32
  | .addiu _ _ _ => 0x24000000#32
  | .slti _ _ _ => 0x28000000#32
  | .sltiu _ _ _ => 0x2C000000#32
  | .andi _ _ _ => 0x30000000#32
  | .ori _ _ _ => 0x34000000#32
  | .xori _ _ _ => 0x38000000#32
  | .lui _ _ => 0x3C000000#32
  | .lb _ _ _ => 0x80000000#32
  | .lh _ _ _ => 0x84000000#32
  | .lwl _ _ _ => 0x88000000#32
  | .lw _ _ _ => 0x8C000000#32
  | .lbu _ _ _ => 0x90000000#32
  | .lhu _ _ _ => 0x94000000#32
  | .lwr _ _ _ => 0x98000000#32
  | .sb _ _ _ => 0xA0000000#32
  | .sh _ _ _ => 0xA4000000#32
  | .swl _ _ _ => 0xA8000000#32
  | .sw _ _ _ => 0xAC000000#32
  | .swr _ _ _ => 0xB8000000#32
  | .mfc0 _ _ => 0x40000000#32
  | .mtc0 _ _ => 0x40800000#32
  | .rfe => 0x42000010#32
  | .cop1 _ => 0x44000000#32
  | .cop2 _ => 0x48000000#32
  | .cop3 _ => 0x4C000000#32
  | .lwc0 _ _ _ => 0xC0000000#32
  | .lwc1 _ _ _ => 0xC4000000#32
  | .lwc2 _ _ _ => 0xC8000000#32
  | .lwc3 _ _ _ => 0xCC000000#32
  | .swc0 _ _ _ => 0xE0000000#32
  | .swc1 _ _ _ => 0xE4000000#32
  | .swc2 _ _ _ => 0xE8000000#32
  | .swc3 _ _ _ => 0xEC000000#32

/-- The encoding agrees with the row. -/
def Laws.TableRow.Statement (i : Instr) : Prop := encode i &&& i.rowMask = i.rowMatch

theorem Laws.TableRow.sll (rd : Reg) (rt : Reg) (shamt : BitVec 5) :
    Laws.TableRow.Statement (.sll rd rt shamt) := by
  exact (rWord_and_funct ..).trans rfl

theorem Laws.TableRow.srl (rd : Reg) (rt : Reg) (shamt : BitVec 5) :
    Laws.TableRow.Statement (.srl rd rt shamt) := by
  exact (rWord_and_funct ..).trans rfl

theorem Laws.TableRow.sra (rd : Reg) (rt : Reg) (shamt : BitVec 5) :
    Laws.TableRow.Statement (.sra rd rt shamt) := by
  exact (rWord_and_funct ..).trans rfl

theorem Laws.TableRow.sllv (rd : Reg) (rt : Reg) (rs : Reg) :
    Laws.TableRow.Statement (.sllv rd rt rs) := by
  exact (rWord_and_funct ..).trans rfl

theorem Laws.TableRow.srlv (rd : Reg) (rt : Reg) (rs : Reg) :
    Laws.TableRow.Statement (.srlv rd rt rs) := by
  exact (rWord_and_funct ..).trans rfl

theorem Laws.TableRow.srav (rd : Reg) (rt : Reg) (rs : Reg) :
    Laws.TableRow.Statement (.srav rd rt rs) := by
  exact (rWord_and_funct ..).trans rfl

theorem Laws.TableRow.jr (rs : Reg) :
    Laws.TableRow.Statement (.jr rs) := by
  exact (rWord_and_funct ..).trans rfl

theorem Laws.TableRow.jalr (rd : Reg) (rs : Reg) :
    Laws.TableRow.Statement (.jalr rd rs) := by
  exact (rWord_and_funct ..).trans rfl

theorem Laws.TableRow.syscall (code : BitVec 20) :
    Laws.TableRow.Statement (.syscall code) := by
  exact (codeWord_and_funct ..).trans rfl

theorem Laws.TableRow.brk (code : BitVec 20) :
    Laws.TableRow.Statement (.brk code) := by
  exact (codeWord_and_funct ..).trans rfl

theorem Laws.TableRow.mfhi (rd : Reg) :
    Laws.TableRow.Statement (.mfhi rd) := by
  exact (rWord_and_funct ..).trans rfl

theorem Laws.TableRow.mthi (rs : Reg) :
    Laws.TableRow.Statement (.mthi rs) := by
  exact (rWord_and_funct ..).trans rfl

theorem Laws.TableRow.mflo (rd : Reg) :
    Laws.TableRow.Statement (.mflo rd) := by
  exact (rWord_and_funct ..).trans rfl

theorem Laws.TableRow.mtlo (rs : Reg) :
    Laws.TableRow.Statement (.mtlo rs) := by
  exact (rWord_and_funct ..).trans rfl

theorem Laws.TableRow.mult (rs : Reg) (rt : Reg) :
    Laws.TableRow.Statement (.mult rs rt) := by
  exact (rWord_and_funct ..).trans rfl

theorem Laws.TableRow.multu (rs : Reg) (rt : Reg) :
    Laws.TableRow.Statement (.multu rs rt) := by
  exact (rWord_and_funct ..).trans rfl

theorem Laws.TableRow.div (rs : Reg) (rt : Reg) :
    Laws.TableRow.Statement (.div rs rt) := by
  exact (rWord_and_funct ..).trans rfl

theorem Laws.TableRow.divu (rs : Reg) (rt : Reg) :
    Laws.TableRow.Statement (.divu rs rt) := by
  exact (rWord_and_funct ..).trans rfl

theorem Laws.TableRow.add (rd : Reg) (rs : Reg) (rt : Reg) :
    Laws.TableRow.Statement (.add rd rs rt) := by
  exact (rWord_and_funct ..).trans rfl

theorem Laws.TableRow.addu (rd : Reg) (rs : Reg) (rt : Reg) :
    Laws.TableRow.Statement (.addu rd rs rt) := by
  exact (rWord_and_funct ..).trans rfl

theorem Laws.TableRow.sub (rd : Reg) (rs : Reg) (rt : Reg) :
    Laws.TableRow.Statement (.sub rd rs rt) := by
  exact (rWord_and_funct ..).trans rfl

theorem Laws.TableRow.subu (rd : Reg) (rs : Reg) (rt : Reg) :
    Laws.TableRow.Statement (.subu rd rs rt) := by
  exact (rWord_and_funct ..).trans rfl

theorem Laws.TableRow.and (rd : Reg) (rs : Reg) (rt : Reg) :
    Laws.TableRow.Statement (.and rd rs rt) := by
  exact (rWord_and_funct ..).trans rfl

theorem Laws.TableRow.or (rd : Reg) (rs : Reg) (rt : Reg) :
    Laws.TableRow.Statement (.or rd rs rt) := by
  exact (rWord_and_funct ..).trans rfl

theorem Laws.TableRow.xor (rd : Reg) (rs : Reg) (rt : Reg) :
    Laws.TableRow.Statement (.xor rd rs rt) := by
  exact (rWord_and_funct ..).trans rfl

theorem Laws.TableRow.nor (rd : Reg) (rs : Reg) (rt : Reg) :
    Laws.TableRow.Statement (.nor rd rs rt) := by
  exact (rWord_and_funct ..).trans rfl

theorem Laws.TableRow.slt (rd : Reg) (rs : Reg) (rt : Reg) :
    Laws.TableRow.Statement (.slt rd rs rt) := by
  exact (rWord_and_funct ..).trans rfl

theorem Laws.TableRow.sltu (rd : Reg) (rs : Reg) (rt : Reg) :
    Laws.TableRow.Statement (.sltu rd rs rt) := by
  exact (rWord_and_funct ..).trans rfl

theorem Laws.TableRow.bltz (rs : Reg) (imm : BitVec 16) :
    Laws.TableRow.Statement (.bltz rs imm) := by
  exact (iWord_and_oprt ..).trans rfl

theorem Laws.TableRow.bgez (rs : Reg) (imm : BitVec 16) :
    Laws.TableRow.Statement (.bgez rs imm) := by
  exact (iWord_and_oprt ..).trans rfl

theorem Laws.TableRow.bltzal (rs : Reg) (imm : BitVec 16) :
    Laws.TableRow.Statement (.bltzal rs imm) := by
  exact (iWord_and_oprt ..).trans rfl

theorem Laws.TableRow.bgezal (rs : Reg) (imm : BitVec 16) :
    Laws.TableRow.Statement (.bgezal rs imm) := by
  exact (iWord_and_oprt ..).trans rfl

theorem Laws.TableRow.j (target : BitVec 26) :
    Laws.TableRow.Statement (.j target) := by
  exact (jWord_and_op ..).trans rfl

theorem Laws.TableRow.jal (target : BitVec 26) :
    Laws.TableRow.Statement (.jal target) := by
  exact (jWord_and_op ..).trans rfl

theorem Laws.TableRow.beq (rs : Reg) (rt : Reg) (imm : BitVec 16) :
    Laws.TableRow.Statement (.beq rs rt imm) := by
  exact (iWord_and_op ..).trans rfl

theorem Laws.TableRow.bne (rs : Reg) (rt : Reg) (imm : BitVec 16) :
    Laws.TableRow.Statement (.bne rs rt imm) := by
  exact (iWord_and_op ..).trans rfl

theorem Laws.TableRow.blez (rs : Reg) (imm : BitVec 16) :
    Laws.TableRow.Statement (.blez rs imm) := by
  exact (iWord_and_op ..).trans rfl

theorem Laws.TableRow.bgtz (rs : Reg) (imm : BitVec 16) :
    Laws.TableRow.Statement (.bgtz rs imm) := by
  exact (iWord_and_op ..).trans rfl

theorem Laws.TableRow.addi (rt : Reg) (rs : Reg) (imm : BitVec 16) :
    Laws.TableRow.Statement (.addi rt rs imm) := by
  exact (iWord_and_op ..).trans rfl

theorem Laws.TableRow.addiu (rt : Reg) (rs : Reg) (imm : BitVec 16) :
    Laws.TableRow.Statement (.addiu rt rs imm) := by
  exact (iWord_and_op ..).trans rfl

theorem Laws.TableRow.slti (rt : Reg) (rs : Reg) (imm : BitVec 16) :
    Laws.TableRow.Statement (.slti rt rs imm) := by
  exact (iWord_and_op ..).trans rfl

theorem Laws.TableRow.sltiu (rt : Reg) (rs : Reg) (imm : BitVec 16) :
    Laws.TableRow.Statement (.sltiu rt rs imm) := by
  exact (iWord_and_op ..).trans rfl

theorem Laws.TableRow.andi (rt : Reg) (rs : Reg) (imm : BitVec 16) :
    Laws.TableRow.Statement (.andi rt rs imm) := by
  exact (iWord_and_op ..).trans rfl

theorem Laws.TableRow.ori (rt : Reg) (rs : Reg) (imm : BitVec 16) :
    Laws.TableRow.Statement (.ori rt rs imm) := by
  exact (iWord_and_op ..).trans rfl

theorem Laws.TableRow.xori (rt : Reg) (rs : Reg) (imm : BitVec 16) :
    Laws.TableRow.Statement (.xori rt rs imm) := by
  exact (iWord_and_op ..).trans rfl

theorem Laws.TableRow.lui (rt : Reg) (imm : BitVec 16) :
    Laws.TableRow.Statement (.lui rt imm) := by
  exact (iWord_and_op ..).trans rfl

theorem Laws.TableRow.lb (rt : Reg) (base : Reg) (offset : BitVec 16) :
    Laws.TableRow.Statement (.lb rt base offset) := by
  exact (iWord_and_op ..).trans rfl

theorem Laws.TableRow.lh (rt : Reg) (base : Reg) (offset : BitVec 16) :
    Laws.TableRow.Statement (.lh rt base offset) := by
  exact (iWord_and_op ..).trans rfl

theorem Laws.TableRow.lwl (rt : Reg) (base : Reg) (offset : BitVec 16) :
    Laws.TableRow.Statement (.lwl rt base offset) := by
  exact (iWord_and_op ..).trans rfl

theorem Laws.TableRow.lw (rt : Reg) (base : Reg) (offset : BitVec 16) :
    Laws.TableRow.Statement (.lw rt base offset) := by
  exact (iWord_and_op ..).trans rfl

theorem Laws.TableRow.lbu (rt : Reg) (base : Reg) (offset : BitVec 16) :
    Laws.TableRow.Statement (.lbu rt base offset) := by
  exact (iWord_and_op ..).trans rfl

theorem Laws.TableRow.lhu (rt : Reg) (base : Reg) (offset : BitVec 16) :
    Laws.TableRow.Statement (.lhu rt base offset) := by
  exact (iWord_and_op ..).trans rfl

theorem Laws.TableRow.lwr (rt : Reg) (base : Reg) (offset : BitVec 16) :
    Laws.TableRow.Statement (.lwr rt base offset) := by
  exact (iWord_and_op ..).trans rfl

theorem Laws.TableRow.sb (rt : Reg) (base : Reg) (offset : BitVec 16) :
    Laws.TableRow.Statement (.sb rt base offset) := by
  exact (iWord_and_op ..).trans rfl

theorem Laws.TableRow.sh (rt : Reg) (base : Reg) (offset : BitVec 16) :
    Laws.TableRow.Statement (.sh rt base offset) := by
  exact (iWord_and_op ..).trans rfl

theorem Laws.TableRow.swl (rt : Reg) (base : Reg) (offset : BitVec 16) :
    Laws.TableRow.Statement (.swl rt base offset) := by
  exact (iWord_and_op ..).trans rfl

theorem Laws.TableRow.sw (rt : Reg) (base : Reg) (offset : BitVec 16) :
    Laws.TableRow.Statement (.sw rt base offset) := by
  exact (iWord_and_op ..).trans rfl

theorem Laws.TableRow.swr (rt : Reg) (base : Reg) (offset : BitVec 16) :
    Laws.TableRow.Statement (.swr rt base offset) := by
  exact (iWord_and_op ..).trans rfl

theorem Laws.TableRow.mfc0 (rt : Reg) (rd : Reg) :
    Laws.TableRow.Statement (.mfc0 rt rd) := by
  exact (cop0MoveWord_and_rs ..).trans rfl

theorem Laws.TableRow.mtc0 (rt : Reg) (rd : Reg) :
    Laws.TableRow.Statement (.mtc0 rt rd) := by
  exact (cop0MoveWord_and_rs ..).trans rfl

theorem Laws.TableRow.rfe : Laws.TableRow.Statement .rfe := by
  show 0x42000010#32 &&& 0xFE00003F#32 = 0x42000010#32
  decide

theorem Laws.TableRow.cop1 (cofun : BitVec 26) :
    Laws.TableRow.Statement (.cop1 cofun) := by
  exact (jWord_and_op ..).trans rfl

theorem Laws.TableRow.cop2 (cofun : BitVec 26) :
    Laws.TableRow.Statement (.cop2 cofun) := by
  exact (jWord_and_op ..).trans rfl

theorem Laws.TableRow.cop3 (cofun : BitVec 26) :
    Laws.TableRow.Statement (.cop3 cofun) := by
  exact (jWord_and_op ..).trans rfl

theorem Laws.TableRow.lwc0 (rt : Reg) (base : Reg) (offset : BitVec 16) :
    Laws.TableRow.Statement (.lwc0 rt base offset) := by
  exact (iWord_and_op ..).trans rfl

theorem Laws.TableRow.lwc1 (rt : Reg) (base : Reg) (offset : BitVec 16) :
    Laws.TableRow.Statement (.lwc1 rt base offset) := by
  exact (iWord_and_op ..).trans rfl

theorem Laws.TableRow.lwc2 (rt : Reg) (base : Reg) (offset : BitVec 16) :
    Laws.TableRow.Statement (.lwc2 rt base offset) := by
  exact (iWord_and_op ..).trans rfl

theorem Laws.TableRow.lwc3 (rt : Reg) (base : Reg) (offset : BitVec 16) :
    Laws.TableRow.Statement (.lwc3 rt base offset) := by
  exact (iWord_and_op ..).trans rfl

theorem Laws.TableRow.swc0 (rt : Reg) (base : Reg) (offset : BitVec 16) :
    Laws.TableRow.Statement (.swc0 rt base offset) := by
  exact (iWord_and_op ..).trans rfl

theorem Laws.TableRow.swc1 (rt : Reg) (base : Reg) (offset : BitVec 16) :
    Laws.TableRow.Statement (.swc1 rt base offset) := by
  exact (iWord_and_op ..).trans rfl

theorem Laws.TableRow.swc2 (rt : Reg) (base : Reg) (offset : BitVec 16) :
    Laws.TableRow.Statement (.swc2 rt base offset) := by
  exact (iWord_and_op ..).trans rfl

theorem Laws.TableRow.swc3 (rt : Reg) (base : Reg) (offset : BitVec 16) :
    Laws.TableRow.Statement (.swc3 rt base offset) := by
  exact (iWord_and_op ..).trans rfl

end Sys2Proof
end

