-- ==== Sys2Proof/Laws/Retire.lean ====
section
/-! SUPPORT. What retiring an instruction does, said once in the terms of the claims: the register a read finds after it, and what it
leaves alone. -/

namespace Sys2Proof.Machine

@[simp] theorem names_none (r : Reg) : names none r = false := rfl

@[simp] theorem names_some (w : RegWrite) (r : Reg) : names (some w) r = (w.reg == r) := rfl

/-- A register after an optional write of another register. -/
theorem RegFile.read_apply_of_not_names (f : RegFile) (w : Option RegWrite) {q : Reg} (h : names w q = false) :
    (f.apply w).read q = f.read q := by
  cases w with
  | none => rfl
  | some w =>
    have hq : w.reg ≠ q := by simpa using h
    rw [RegFile.apply, RegFile.read_write, if_neg hq]
    split
    · next h0 => rw [h0, RegFile.read_zero]
    · rfl

/-- A register after an optional write of it. -/
theorem RegFile.read_apply_of_names (f : RegFile) (w : Option RegWrite) {q : Reg} (hq : q ≠ 0) (h : names w q = true) :
    (f.apply w).read q = (w.map (·.val)).getD 0 := by
  cases w with
  | none => simp at h
  | some w =>
    have hw : w.reg = q := by simpa using h
    rw [RegFile.apply, RegFile.read_write, if_neg hq, if_pos hw]
    rfl

/-- Which register the committed load writes (40_cpu_step R158, R159). -/
theorem names_committedLoad (e : Effect) (s : State) (q : Reg) :
    names (committedLoad e s) q = (names s.ld q && !(names e.wr q || names e.ld q)) := by
  cases hl : s.ld with
  | none => simp [committedLoad, hl]
  | some p =>
    by_cases hpq : p.reg = q
    · subst hpq
      cases hn : (names e.wr p.reg || names e.ld p.reg) <;> simp [committedLoad, hl, hn]
    · simp only [committedLoad, hl]
      split <;> simp [hpq]

theorem committedLoad_val {e : Effect} {s : State} {q : Reg} (h : names (committedLoad e s) q = true) :
    (committedLoad e s).map (·.val) = s.ld.map (·.val) := by
  cases hl : s.ld with
  | none => simp [committedLoad, hl] at h
  | some p =>
    simp only [committedLoad, hl] at h ⊢
    split at h
    · simp at h
    · next hn => rw [if_neg hn]

/-- The registers after the commit of the pending load and the instruction's own write. -/
theorem retire_reg (e : Effect) (s : State) (q : Reg) : (retire e s).reg q = regAfter s e.wr e.ld q := by
  change ((s.gpr.apply (committedLoad e s)).apply e.wr).read q = _
  unfold regAfter
  by_cases hq : q = 0
  · rw [if_pos hq, hq, RegFile.read_zero]
  · rw [if_neg hq]
    cases hw : names e.wr q with
    | true => rw [if_pos rfl, RegFile.read_apply_of_names _ _ hq hw]
    | false =>
      rw [if_neg (by simp), RegFile.read_apply_of_not_names _ _ hw]
      have hn := names_committedLoad e s q
      rw [hw, Bool.false_or] at hn
      cases hc : names (committedLoad e s) q with
      | true => rw [← hn, hc, if_pos rfl, RegFile.read_apply_of_names _ _ hq hc, committedLoad_val hc]
      | false =>
        rw [← hn, hc, if_neg (by simp), RegFile.read_apply_of_not_names _ _ hc]
        rfl

theorem RegFile.written_apply (f : RegFile) (w : Option RegWrite) {q : Reg} (hq : q ≠ 0) :
    (f.apply w).written.get q.toFin = (f.written.get q.toFin || names w q) := by
  cases w with
  | none => simp [RegFile.apply]
  | some w =>
    rw [RegFile.apply, RegFile.written_write]
    by_cases h : w.reg = q
    · have hq' : q ≠ 0#5 := hq
      simp [h, hq']
    · have hb : (w.reg == q) = false := by simpa using h
      simp [hb]

/-- Retiring with effect `e` is what `Retired` says. -/
theorem retire_retired (e : Effect) (s : State) : Retired e s (retire e s) where
  regs := retire_reg e s
  written q hq := by
    change ((s.gpr.apply (committedLoad e s)).apply e.wr).written.get q.toFin = _
    rw [RegFile.written_apply _ _ hq, RegFile.written_apply _ _ hq, names_committedLoad]
    cases s.gpr.written.get q.toFin <;> cases names e.wr q <;> cases names s.ld q <;> cases names e.ld q <;> rfl
  slot := rfl
  branch := rfl
  pc := by
    have hpc : (retire e s).pc = nextPc e s := rfl
    rw [hpc, nextPc]
    cases e.br <;> cases s.br <;> rfl
  hi := rfl
  lo := rfl
  hiSet := rfl
  loSet := rfl
  age := by
    have h : (retire e s).hiloAge = agedHiLo e s := rfl
    rw [h, agedHiLo]
    split <;> rfl

/-- Retiring changes the CPU's own registers and nothing else. -/
theorem retire_frame (e : Effect) (s : State) : CpuFrame s (retire e s) := ⟨rfl, fun _ => rfl⟩

/-- An instruction that retires in its own state completes with its effect. -/
theorem completes_of_retire {i : Instr} {e : Effect} {s : State} (h : exec i s = .next (retire e s)) : Completes i e s :=
  ⟨_, h, retire_retired e s, retire_frame e s⟩

end Sys2Proof.Machine
end

