-- ==== Sys2Proof/Laws/Step.lean ====
section
/-! SUPPORT. What a transition can be, and what the host entries leave alone. -/

namespace Sys2Proof.Machine

/-- What is held back by a recorded fault or refusal runs only with neither (40_cpu_step R152). -/
theorem ifEnabled_next {s t : State} {run : Result} (h : ifEnabled s run = .next t) :
    s.faults = [] ∧ s.refused = false ∧ run = .next t := by
  unfold ifEnabled at h
  split at h
  · simp at h
  · next hf =>
    split at h
    · simp at h
    · next hr => exact ⟨hf, by simpa using hr, h⟩

theorem ifEnabled_of_live {s : State} (h : live s = true) (run : Result) : ifEnabled s run = run := by
  simp only [live, Bool.and_eq_true, List.isEmpty_iff, Bool.not_eq_true'] at h
  simp [ifEnabled, h.1.1, h.1.2]

/-- Everything a step that answers a next state can be: a transition while a DMA unit is owed, or the next turn. -/
theorem step_cases {s t : State} (h : step s = .next t) :
    configOk s = true ∧
      ((catchingUp s = true ∧ t = catchUpTurn s) ∨
        (catchingUp s = false ∧ takeTurn (nextTurn s) (startTurn s) = .next t)) := by
  unfold step guarded at h
  split at h
  · next hc =>
    refine ⟨hc, ?_⟩
    unfold transition at h
    split at h
    · next hu => exact .inl ⟨hu, (Host.Outcome.next.inj h).symm⟩
    · next hu => exact .inr ⟨by simpa using hu, h⟩
  · simp at h

/-- A restore that passes the check puts the saved state of 10_state in place and leaves everything else (70_reset R464). -/
theorem restore_next {saved : Snapshot} {s t : State} (h : restore saved s = .next t) :
    t = { s with toSnapshot := saved } ∧ configOk t = true := by
  unfold restore at h
  split at h
  · next hc =>
    cases h
    exact ⟨rfl, hc⟩
  · simp at h

theorem dmaStep_cfg (s : State) : (dmaStep s).cfg = s.cfg := by rw [dmaStep_frame s]

theorem dmaStep_agenda (s : State) : (dmaStep s).agenda = s.agenda := by rw [dmaStep_frame s]

/-- An owed unit takes nothing from the agenda. -/
@[simp] theorem owedUnit_agenda (s : State) : (owedUnit s).agenda = s.agenda := dmaStep_agenda s

@[simp] theorem owedUnit_cfg (s : State) : (owedUnit s).cfg = s.cfg := dmaStep_cfg s

@[simp] theorem owedUnit_dmaOwed (s : State) : (owedUnit s).dmaOwed = (s.dmaOwed && s.cfg.schedule == .eager) := rfl

/-- The parameters, the record of what was sent and the agenda beyond its head are left alone by the host entries. -/
theorem hostReset_frame (s : State) :
    (hostReset s).mem = s.mem ∧ (hostReset s).cfg = s.cfg ∧ (hostReset s).agenda = s.agenda ∧
      (hostReset s).dmaReady = s.dmaReady ∧ (hostReset s).draws = s.draws ∧ (hostReset s).emitted = s.emitted :=
  ⟨rfl, rfl, rfl, rfl, rfl, rfl⟩

/-- What is left after a transition is the next state, or the state before it with the stop recorded (00_scope R13, R14). -/
theorem advance_cases (s : State) :
    (∃ t, step s = .next t ∧ advance s = t) ∨ (∃ f, step s = .fault f ∧ advance s = recordFault f (startTurn s)) ∨
      (∃ r, step s = .refused r ∧ advance s = recordRefusal (startTurn s)) := by
  unfold step advance
  cases guarded s with
  | next t => exact .inl ⟨t, rfl, rfl⟩
  | fault f => exact .inr (.inl ⟨f, rfl, rfl⟩)
  | refused r => exact .inr (.inr ⟨r, rfl, rfl⟩)

/-- A recorded fault stays in the list, whatever is recorded after it. -/
theorem mem_recordFault {f g : Fault} {s : State} (h : g ∈ s.faults ∨ g = f) : g ∈ (recordFault f s).faults := by
  rw [recordFault_faults]
  split <;> rcases h with h | rfl <;> simp_all

end Sys2Proof.Machine
end

