-- ==== Sys2Proof/Laws/Values.lean ====
section
/-! SUPPORT. The values the arithmetic families compute, in the words of the spec: comparisons, the signed range, shift amounts and the
exact product. -/

namespace Sys2Proof.Machine

theorem boolWord_ltSigned (a b : Word) : boolWord (ltSigned a b) = if a.toInt < b.toInt then 1 else 0 := by
  by_cases h : a.toInt < b.toInt <;> simp [boolWord, ltSigned, h]

theorem boolWord_ltUnsigned (a b : Word) : boolWord (ltUnsigned a b) = if a.toNat < b.toNat then 1 else 0 := by
  by_cases h : a.toNat < b.toNat <;> simp [boolWord, ltUnsigned, h]

theorem outOfRange_eq_false {r : Int} : outOfRange r = false ↔ -(2 ^ 31) ≤ r ∧ r ≤ 2 ^ 31 - 1 := by
  simp [outOfRange]

theorem varShamt_toNat (x : Word) : (varShamt x).toNat = x.toNat % 32 := by simp [varShamt]

/-- Shifting right with copies of the sign bit divides by the power of two and rounds down. -/
theorem sshiftRight_eq_div (b : Word) (k : Nat) : b.sshiftRight k = BitVec.ofInt 32 (b.toInt / 2 ^ k) := by
  have hk : (1 : Int) ≤ 2 ^ k := by exact_mod_cast Nat.one_le_two_pow
  have lo := b.le_toInt
  have hi := b.toInt_lt
  have ge : -2147483648 ≤ b.toInt / 2 ^ k := Int.le_ediv_of_mul_le (by omega) (by simp at lo; nlinarith)
  have lt : b.toInt / 2 ^ k < 2147483648 := Int.ediv_lt_of_lt_mul (by omega) (by simp at hi; nlinarith)
  apply BitVec.eq_of_toInt_eq
  rw [BitVec.toInt_sshiftRight, Int.shiftRight_eq_div_pow, BitVec.toInt_ofInt, Int.bmod_eq_of_le]
  · push_cast
    rfl
  · push_cast
    omega
  · push_cast
    omega

/-- The two halves of an exact product. -/
theorem prodHi_append_prodLo (p : Int) : (prodHi p ++ prodLo p : BitVec 64) = BitVec.ofInt 64 p := by
  apply BitVec.eq_of_getLsbD_eq
  intro i hi
  simp only [prodHi, prodLo, BitVec.getLsbD_append, BitVec.getLsbD_extractLsb']
  by_cases h : i < 32
  · simp [h]
  · simp [h, show i - 32 < 32 by omega, show 32 + (i - 32) = i by omega]

/-- Without the hazard the check does nothing. -/
theorem checkHiLo_of_no_hazard {s : State} (h : s.hiloAge = 0 ∨ s.cfg.hiloHazard = .ignore) (r : Result) :
    checkHiLo s r = r := by
  unfold checkHiLo
  rw [if_neg]
  unfold hiLoHazard
  rcases h with h | h <;> simp [h]

end Sys2Proof.Machine
end

