-- ==== Sys2Proof/Tests/Slice0.lean ====
section
/-! SUPPORT. Checks of this model's own work: words written out from the spec's encodings, single steps whose results 95_test_vectors
gives, the word check of WellFormed, and for every statement with hypotheses a state and operands that meet them. -/

namespace Sys2Proof.Tests

open Sys2Proof.Machine

/-! ## Words -/

/-- 30_encoding R121, R128; 41_alu R200 to R205: the words of the shifts, field by field. -/
theorem test_decode_shifts :
    decode (0x00#6 ++ 8#5 ++ 9#5 ++ 10#5 ++ 5#5 ++ 0x00#6) = .instr (.sll 10 9 5) ∧
    decode (0x00#6 ++ 8#5 ++ 9#5 ++ 10#5 ++ 5#5 ++ 0x02#6) = .instr (.srl 10 9 5) ∧
    decode (0x00#6 ++ 8#5 ++ 9#5 ++ 10#5 ++ 5#5 ++ 0x03#6) = .instr (.sra 10 9 5) ∧
    decode (0x00#6 ++ 8#5 ++ 9#5 ++ 10#5 ++ 5#5 ++ 0x04#6) = .instr (.sllv 10 9 8) ∧
    decode (0x00#6 ++ 8#5 ++ 9#5 ++ 10#5 ++ 5#5 ++ 0x06#6) = .instr (.srlv 10 9 8) ∧
    decode (0x00#6 ++ 8#5 ++ 9#5 ++ 10#5 ++ 5#5 ++ 0x07#6) = .instr (.srav 10 9 8) := by decide

/-- 30_encoding R121, R128; 41_alu R182 to R191. -/
theorem test_decode_register_alu :
    decode (0x00#6 ++ 8#5 ++ 9#5 ++ 10#5 ++ 0#5 ++ 0x20#6) = .instr (.add 10 8 9) ∧
    decode (0x00#6 ++ 8#5 ++ 9#5 ++ 10#5 ++ 0#5 ++ 0x21#6) = .instr (.addu 10 8 9) ∧
    decode (0x00#6 ++ 8#5 ++ 9#5 ++ 10#5 ++ 0#5 ++ 0x22#6) = .instr (.sub 10 8 9) ∧
    decode (0x00#6 ++ 8#5 ++ 9#5 ++ 10#5 ++ 0#5 ++ 0x23#6) = .instr (.subu 10 8 9) ∧
    decode (0x00#6 ++ 8#5 ++ 9#5 ++ 10#5 ++ 0#5 ++ 0x24#6) = .instr (.and 10 8 9) ∧
    decode (0x00#6 ++ 8#5 ++ 9#5 ++ 10#5 ++ 0#5 ++ 0x25#6) = .instr (.or 10 8 9) ∧
    decode (0x00#6 ++ 8#5 ++ 9#5 ++ 10#5 ++ 0#5 ++ 0x26#6) = .instr (.xor 10 8 9) ∧
    decode (0x00#6 ++ 8#5 ++ 9#5 ++ 10#5 ++ 0#5 ++ 0x27#6) = .instr (.nor 10 8 9) ∧
    decode (0x00#6 ++ 8#5 ++ 9#5 ++ 10#5 ++ 0#5 ++ 0x2A#6) = .instr (.slt 10 8 9) ∧
    decode (0x00#6 ++ 8#5 ++ 9#5 ++ 10#5 ++ 0#5 ++ 0x2B#6) = .instr (.sltu 10 8 9) := by decide

/-- 30_encoding R122, R127; 41_alu R192 to R199. -/
theorem test_decode_immediate_alu :
    decode (0x08#6 ++ 8#5 ++ 9#5 ++ 0x8004#16) = .instr (.addi 9 8 0x8004) ∧
    decode (0x09#6 ++ 8#5 ++ 9#5 ++ 0x8004#16) = .instr (.addiu 9 8 0x8004) ∧
    decode (0x0A#6 ++ 8#5 ++ 9#5 ++ 0x8004#16) = .instr (.slti 9 8 0x8004) ∧
    decode (0x0B#6 ++ 8#5 ++ 9#5 ++ 0x8004#16) = .instr (.sltiu 9 8 0x8004) ∧
    decode (0x0C#6 ++ 8#5 ++ 9#5 ++ 0x8004#16) = .instr (.andi 9 8 0x8004) ∧
    decode (0x0D#6 ++ 8#5 ++ 9#5 ++ 0x8004#16) = .instr (.ori 9 8 0x8004) ∧
    decode (0x0E#6 ++ 8#5 ++ 9#5 ++ 0x8004#16) = .instr (.xori 9 8 0x8004) ∧
    decode (0x0F#6 ++ 8#5 ++ 9#5 ++ 0x8004#16) = .instr (.lui 9 0x8004) := by decide

/-- 30_encoding R121, R128; 42_muldiv R232 to R239. -/
theorem test_decode_multiply_divide :
    decode (0x00#6 ++ 8#5 ++ 9#5 ++ 10#5 ++ 0#5 ++ 0x18#6) = .instr (.mult 8 9) ∧
    decode (0x00#6 ++ 8#5 ++ 9#5 ++ 10#5 ++ 0#5 ++ 0x19#6) = .instr (.multu 8 9) ∧
    decode (0x00#6 ++ 8#5 ++ 9#5 ++ 10#5 ++ 0#5 ++ 0x1A#6) = .instr (.div 8 9) ∧
    decode (0x00#6 ++ 8#5 ++ 9#5 ++ 10#5 ++ 0#5 ++ 0x1B#6) = .instr (.divu 8 9) ∧
    decode (0x00#6 ++ 8#5 ++ 9#5 ++ 10#5 ++ 0#5 ++ 0x10#6) = .instr (.mfhi 10) ∧
    decode (0x00#6 ++ 8#5 ++ 9#5 ++ 10#5 ++ 0#5 ++ 0x11#6) = .instr (.mthi 8) ∧
    decode (0x00#6 ++ 8#5 ++ 9#5 ++ 10#5 ++ 0#5 ++ 0x12#6) = .instr (.mflo 10) ∧
    decode (0x00#6 ++ 8#5 ++ 9#5 ++ 10#5 ++ 0#5 ++ 0x13#6) = .instr (.mtlo 8) := by decide

/-- 30_encoding R121, R123, R127, R128; 43_branch_jump R252 to R255. -/
theorem test_decode_jumps :
    decode (0x02#6 ++ 0x2ABCDEF#26) = .instr (.j 0x2ABCDEF) ∧
    decode (0x03#6 ++ 0x2ABCDEF#26) = .instr (.jal 0x2ABCDEF) ∧
    decode (0x00#6 ++ 8#5 ++ 9#5 ++ 10#5 ++ 0#5 ++ 0x08#6) = .instr (.jr 8) ∧
    decode (0x00#6 ++ 8#5 ++ 9#5 ++ 10#5 ++ 0#5 ++ 0x09#6) = .instr (.jalr 10 8) := by decide

/-- 30_encoding R122, R127, R129; 43_branch_jump R256 to R263. -/
theorem test_decode_branches :
    decode (0x04#6 ++ 8#5 ++ 9#5 ++ 0x8004#16) = .instr (.beq 8 9 0x8004) ∧
    decode (0x05#6 ++ 8#5 ++ 9#5 ++ 0x8004#16) = .instr (.bne 8 9 0x8004) ∧
    decode (0x06#6 ++ 8#5 ++ 0#5 ++ 0x8004#16) = .instr (.blez 8 0x8004) ∧
    decode (0x07#6 ++ 8#5 ++ 0#5 ++ 0x8004#16) = .instr (.bgtz 8 0x8004) ∧
    decode (0x01#6 ++ 8#5 ++ 0#5 ++ 0x8004#16) = .instr (.bltz 8 0x8004) ∧
    decode (0x01#6 ++ 8#5 ++ 1#5 ++ 0x8004#16) = .instr (.bgez 8 0x8004) ∧
    decode (0x01#6 ++ 8#5 ++ 16#5 ++ 0x8004#16) = .instr (.bltzal 8 0x8004) ∧
    decode (0x01#6 ++ 8#5 ++ 17#5 ++ 0x8004#16) = .instr (.bgezal 8 0x8004) := by decide

/-- 30_encoding R122, R127; 44_load_store R284 to R298. -/
theorem test_decode_loads_stores :
    decode (0x20#6 ++ 8#5 ++ 9#5 ++ 0x8004#16) = .instr (.lb 9 8 0x8004) ∧
    decode (0x21#6 ++ 8#5 ++ 9#5 ++ 0x8004#16) = .instr (.lh 9 8 0x8004) ∧
    decode (0x22#6 ++ 8#5 ++ 9#5 ++ 0x8004#16) = .instr (.lwl 9 8 0x8004) ∧
    decode (0x23#6 ++ 8#5 ++ 9#5 ++ 0x8004#16) = .instr (.lw 9 8 0x8004) ∧
    decode (0x24#6 ++ 8#5 ++ 9#5 ++ 0x8004#16) = .instr (.lbu 9 8 0x8004) ∧
    decode (0x25#6 ++ 8#5 ++ 9#5 ++ 0x8004#16) = .instr (.lhu 9 8 0x8004) ∧
    decode (0x26#6 ++ 8#5 ++ 9#5 ++ 0x8004#16) = .instr (.lwr 9 8 0x8004) ∧
    decode (0x28#6 ++ 8#5 ++ 9#5 ++ 0x8004#16) = .instr (.sb 9 8 0x8004) ∧
    decode (0x29#6 ++ 8#5 ++ 9#5 ++ 0x8004#16) = .instr (.sh 9 8 0x8004) ∧
    decode (0x2A#6 ++ 8#5 ++ 9#5 ++ 0x8004#16) = .instr (.swl 9 8 0x8004) ∧
    decode (0x2B#6 ++ 8#5 ++ 9#5 ++ 0x8004#16) = .instr (.sw 9 8 0x8004) ∧
    decode (0x2E#6 ++ 8#5 ++ 9#5 ++ 0x8004#16) = .instr (.swr 9 8 0x8004) := by decide

/-- 30_encoding R124, R128, R130; 45_cop_system R311 to R325. -/
theorem test_decode_system :
    decode (0x10#6 ++ 0x00#5 ++ 9#5 ++ 12#5 ++ 0#11) = .instr (.mfc0 9 12) ∧
    decode (0x10#6 ++ 0x04#5 ++ 9#5 ++ 12#5 ++ 0#11) = .instr (.mtc0 9 12) ∧
    decode (0x10#6 ++ 1#1 ++ 0#19 ++ 0x10#6) = .instr .rfe ∧
    decode (0x00#6 ++ 0xABCDE#20 ++ 0x0C#6) = .instr (.syscall 0xABCDE) ∧
    decode (0x00#6 ++ 0xABCDE#20 ++ 0x0D#6) = .instr (.brk 0xABCDE) := by decide

/-- 30_encoding R124, R127, R133; 45_cop_system R322, R323. -/
theorem test_decode_coprocessors :
    decode (0x11#6 ++ 0x2ABCDEF#26) = .instr (.cop1 0x2ABCDEF) ∧
    decode (0x12#6 ++ 0x2ABCDEF#26) = .instr (.cop2 0x2ABCDEF) ∧
    decode (0x13#6 ++ 0x2ABCDEF#26) = .instr (.cop3 0x2ABCDEF) ∧
    decode (0x30#6 ++ 8#5 ++ 9#5 ++ 0x8004#16) = .instr (.lwc0 9 8 0x8004) ∧
    decode (0x31#6 ++ 8#5 ++ 9#5 ++ 0x8004#16) = .instr (.lwc1 9 8 0x8004) ∧
    decode (0x32#6 ++ 8#5 ++ 9#5 ++ 0x8004#16) = .instr (.lwc2 9 8 0x8004) ∧
    decode (0x33#6 ++ 8#5 ++ 9#5 ++ 0x8004#16) = .instr (.lwc3 9 8 0x8004) ∧
    decode (0x38#6 ++ 8#5 ++ 9#5 ++ 0x8004#16) = .instr (.swc0 9 8 0x8004) ∧
    decode (0x39#6 ++ 8#5 ++ 9#5 ++ 0x8004#16) = .instr (.swc1 9 8 0x8004) ∧
    decode (0x3A#6 ++ 8#5 ++ 9#5 ++ 0x8004#16) = .instr (.swc2 9 8 0x8004) ∧
    decode (0x3B#6 ++ 8#5 ++ 9#5 ++ 0x8004#16) = .instr (.swc3 9 8 0x8004) := by decide

/-- 30_encoding R127, R128, R129, R130: words that are no instruction. -/
theorem test_decode_no_instruction :
    decode 0xFC000000#32 = .reserved ∧ decode 0x0000000F#32 = .reserved ∧ decode 0x00000001#32 = .reserved ∧
      decode 0x05020000#32 = .otherRegimm ∧ decode 0x42000001#32 = .otherCop0 ∧ decode 0x41000000#32 = .otherCop0 := by decide

/-- 30_encoding R132: a field the instruction does not use is ignored, and the word check refuses the word: a shamt in ADD, an rs
in SLL, an rt in BLEZ and in JR, an rd in MULT, an rs in LUI, low bits of MFC0. -/
theorem test_wellformed_refuses :
    Instr.canonicalWord (.add 10 8 9) 0x01095060#32 = false ∧ Instr.canonicalWord (.sll 10 9 0) 0x01095000#32 = false ∧
      Instr.canonicalWord (.blez 8 4) 0x19010004#32 = false ∧ Instr.canonicalWord (.jr 8) 0x01010008#32 = false ∧
      Instr.canonicalWord (.mult 8 9) 0x01090818#32 = false ∧ Instr.canonicalWord (.lui 9 1) 0x3D090001#32 = false ∧
      Instr.canonicalWord (.mfc0 9 12) 0x40096001#32 = false ∧ Instr.canonicalWord .rfe 0x42100010#32 = false ∧
      Instr.canonicalWord (.jalr 10 8) 0x01015009#32 = false ∧ Instr.canonicalWord (.mfhi 10) 0x01005010#32 = false := by decide

/-- The same words decode all the same (30_encoding R132), and a word with those fields 0 passes. -/
theorem test_wellformed_accepts :
    decode 0x01095060#32 = .instr (.add 10 8 9) ∧ Instr.canonicalWord (.add 10 8 9) 0x01095020#32 = true ∧
      decode 0x19010004#32 = .instr (.blez 8 4) ∧ Instr.canonicalWord (.blez 8 4) 0x19000004#32 = true := by decide

/-- 30_encoding R120: the first byte of a word is its least significant one; a row of the opcode table read through the decoder. -/
theorem test_table_word : decodeTableWord 32 0x01095020 = some (.add 10 8 9) ∧ decodeBytes [0x20, 0x50, 0x09, 0x01, 0xFF] =
    some (.instr (.add 10 8 9), [0xFF]) ∧ decodeBytes [0x20, 0x50, 0x09] = none := by decide

/-! ## Single steps (95_test_vectors section 2) -/

/-- The start state of 95_test_vectors section 0, with the strict parameters. -/
def start : State :=
  { State.reset with
    pc := 0x80010000#32
    sr := 0#32
    cfg := { State.reset.cfg with busPolicy := .strict, nestPolicy := .fault, ackPolarity := .write1Clears } }

/-- `s` under UNWRITTEN_REG_POLICY = fault. -/
def unsetFaults (s : State) : State := { s with cfg := { s.cfg with unwritten := .fault } }

/-- `s` with t0 = `a` and t1 = `b`. -/
def with2 (s : State) (a b : Word) : State := { s with gpr := (s.gpr.write 8 a).write 9 b }

/-- `s` with a word of memory. -/
def withWord (s : State) (a : Nat) (w : Word) : State := { s with mem := writeMem s.mem a .b32 w }

/-- One step of `s` with the word `w` at its pc; a stop shows as a state of odd pc. -/
def ran (w : Nat) (s : State) : State :=
  match step (s.withFetchWord 32 w) with
  | .next t => t
  | _ => { s with pc := 1 }

/-- The fault or the refusal of that step. -/
def stopped (w : Nat) (s : State) : Option (Fault ⊕ Refusal) :=
  match step (s.withFetchWord 32 w) with
  | .next _ => none
  | .fault f => some (.inl f)
  | .refused r => some (.inr r)

/-- Exception code, EPC, BD and pc. -/
def entry (t : State) : BitVec 5 × Word × Bool × Word := (t.cause.excCode, t.epc, t.cause.bd, t.pc)

/-- Two words of RAM for the loads and stores of 95_test_vectors section 2.4. -/
def memStart : State := withWord (withWord (with2 start 0x80001000 0xAABBCCDD) 0x1000 0x11223344) 0x1004 0x8899AABB

/-- User mode in KUSEG. -/
def userStart : State := { memStart with sr := 2, pc := 0x10000 }

/-! Section 2.1. -/

theorem test_add : entry (ran 0x01095020 (with2 start 0x7FFFFFFF 1)) = (12, 0x80010000, false, 0x80000080) ∧
    (ran 0x01095020 (with2 start 0xFFFFFFFF 0xFFFFFFFF)).reg 10 = 0xFFFFFFFE := by decide
theorem test_addu : (ran 0x01095021 (with2 start 0x7FFFFFFF 1)).reg 10 = 0x80000000 := by decide
theorem test_sub : entry (ran 0x01095022 (with2 start 0 0x80000000)) = (12, 0x80010000, false, 0x80000080) ∧
    (ran 0x01095022 (with2 start 0xFFFFFFFF 0x7FFFFFFF)).reg 10 = 0x80000000 := by decide
theorem test_subu : (ran 0x01095023 (with2 start 0 1)).reg 10 = 0xFFFFFFFF := by decide
theorem test_and : (ran 0x01095024 (with2 start 0xF0F0F0F0 0xFF00FF00)).reg 10 = 0xF000F000 := by decide
theorem test_or : (ran 0x01095025 (with2 start 0xF0F0F0F0 0xFF00FF00)).reg 10 = 0xFFF0FFF0 := by decide
theorem test_xor : (ran 0x01095026 (with2 start 0xF0F0F0F0 0xFF00FF00)).reg 10 = 0x0FF00FF0 := by decide
theorem test_nor : (ran 0x01095027 start).reg 10 = 0xFFFFFFFF := by decide
theorem test_slt : (ran 0x0109502A (with2 start 0xFFFFFFFF 1)).reg 10 = 1 := by decide
theorem test_sltu : (ran 0x0109502B (with2 start 0xFFFFFFFF 1)).reg 10 = 0 := by decide
theorem test_addi : entry (ran 0x2109FFFF (with2 start 0x80000000 0)) = (12, 0x80010000, false, 0x80000080) ∧
    (ran 0x21097FFF (with2 start 0x7FFF8000 0)).reg 9 = 0x7FFFFFFF := by decide
theorem test_addiu : (ran 0x25098000 start).reg 9 = 0xFFFF8000 := by decide
theorem test_slti : (ran 0x29098000 (with2 start 0xFFFF8000 7)).reg 9 = 0 := by decide
theorem test_sltiu : (ran 0x2D09FFFF (with2 start 0xFFFFFFFE 0)).reg 9 = 1 := by decide
theorem test_andi : (ran 0x3109FFFF (with2 start 0xFFFFFFFF 0)).reg 9 = 0x0000FFFF := by decide
theorem test_ori : (ran 0x35098000 start).reg 9 = 0x00008000 := by decide
theorem test_xori : (ran 0x3909FFFF (with2 start 0x12345678 0)).reg 9 = 0x1234A987 := by decide
theorem test_lui : (ran 0x3C09FFFF start).reg 9 = 0xFFFF0000 := by decide
theorem test_sll : (ran 0x00084900 (with2 start 0x87654321 0)).reg 9 = 0x76543210 := by decide
theorem test_srl : (ran 0x00084FC2 (with2 start 0x80000000 0)).reg 9 = 1 := by decide
theorem test_sra : (ran 0x00084FC3 (with2 start 0x80000000 0)).reg 9 = 0xFFFFFFFF := by decide
theorem test_sllv : (ran 0x01285004 (with2 start 1 0x21)).reg 10 = 2 := by decide
theorem test_srlv : (ran 0x01285006 (with2 start 0x80000000 0x20)).reg 10 = 0x80000000 := by decide
theorem test_srav : (ran 0x01285007 (with2 start 0x80000000 0xFFFFFFFF)).reg 10 = 0xFFFFFFFF := by decide
theorem test_nop : (ran 0 start).pc = 0x80010004 ∧ (ran 0 start).gpr = start.gpr := by decide

/-! Section 2.2. -/

/-- (hi, lo) after one step. -/
def hiLo (w : Nat) (a b : Word) : Word × Word :=
  let t := ran w { with2 start a b with hi := 0x11111111, lo := 0x22222222 }
  (t.hi, t.lo)

theorem test_mult : hiLo 0x01090018 0x80000000 0x7FFFFFFF = (0xC0000000, 0x80000000) ∧
    hiLo 0x01090018 0xFFFFFFFE 3 = (0xFFFFFFFF, 0xFFFFFFFA) := by decide
theorem test_multu : hiLo 0x01090019 0xFFFFFFFF 0xFFFFFFFF = (0xFFFFFFFE, 1) := by decide
theorem test_div : hiLo 0x0109001A 0xFFFFFFF9 2 = (0xFFFFFFFF, 0xFFFFFFFD) ∧ hiLo 0x0109001A 7 0xFFFFFFFE = (1, 0xFFFFFFFD) := by decide
theorem test_div_corners : hiLo 0x0109001A 5 0 = (5, 0xFFFFFFFF) ∧ hiLo 0x0109001A 0xFFFFFFFB 0 = (0xFFFFFFFB, 1) ∧
    hiLo 0x0109001A 0x80000000 0xFFFFFFFF = (0, 0x80000000) := by decide
theorem test_divu : hiLo 0x0109001B 0xFFFFFFF9 2 = (1, 0x7FFFFFFC) ∧ hiLo 0x0109001B 5 0 = (5, 0xFFFFFFFF) := by decide
theorem test_mfhi : (ran 0x00005010 { start with hi := 0xAAAAAAAA }).reg 10 = 0xAAAAAAAA ∧
    (ran 0x00005010 { start with hi := 0xAAAAAAAA }).hiloAge = 2 := by decide
theorem test_mflo : (ran 0x00005012 { start with lo := 0x55555555 }).reg 10 = 0x55555555 := by decide
theorem test_mthi : hiLo 0x01000011 0x9ABCDEF0 0 = (0x9ABCDEF0, 0x22222222) := by decide
theorem test_mtlo : hiLo 0x01000013 0x9ABCDEF0 0 = (0x11111111, 0x9ABCDEF0) := by decide
theorem test_hilo_hazard : stopped 0x01090018 { start with hiloAge := 1 } = some (.inl .hiLoHazard) ∧
    stopped 0x01090018 start = none := by decide

/-! Section 2.3. -/

/-- The branch slot and the pc after one step. -/
def slot (w : Nat) (a b : Word) : Option Word × Word := ((ran w (with2 start a b)).br, (ran w (with2 start a b)).pc)

theorem test_beq : slot 0x11090004 1 1 = (some 0x80010014, 0x80010004) ∧ slot 0x11090004 1 2 = (some 0x80010008, 0x80010004) := by decide
theorem test_bne : slot 0x1509FFFF 1 2 = (some 0x80010000, 0x80010004) := by decide
theorem test_blez : slot 0x19000004 0 0 = (some 0x80010014, 0x80010004) ∧ slot 0x19000004 1 0 = (some 0x80010008, 0x80010004) := by decide
theorem test_bgtz : slot 0x1D000004 0 0 = (some 0x80010008, 0x80010004) ∧
    slot 0x1D000004 0x7FFFFFFF 0 = (some 0x80010014, 0x80010004) := by decide
theorem test_bltz : slot 0x05000004 0x80000000 0 = (some 0x80010014, 0x80010004) ∧ slot 0x05000004 0 0 = (some 0x80010008, 0x80010004) := by decide
theorem test_bgez : slot 0x05010004 0 0 = (some 0x80010014, 0x80010004) ∧
    slot 0x05010004 0xFFFFFFFF 0 = (some 0x80010008, 0x80010004) := by decide
theorem test_bltzal : slot 0x05100004 1 0 = (some 0x80010008, 0x80010004) ∧ (ran 0x05100004 (with2 start 1 0)).reg 31 = 0x80010008 := by decide
theorem test_bgezal : slot 0x05110004 1 0 = (some 0x80010014, 0x80010004) ∧ (ran 0x05110004 (with2 start 1 0)).reg 31 = 0x80010008 := by decide
theorem test_j : slot 0x08100000 0 0 = (some 0x80400000, 0x80010004) := by decide
theorem test_jal : slot 0x0FFFFFFF 0 0 = (some 0x8FFFFFFC, 0x80010004) ∧ (ran 0x0FFFFFFF start).reg 31 = 0x80010008 := by decide
theorem test_jr : slot 0x01000008 0x80020002 0 = (some 0x80020002, 0x80010004) := by decide
theorem test_jalr : slot 0x01000009 0x80020000 0 = (some 0x80020000, 0x80010004) ∧
    stopped 0x01004009 (with2 start 0x80020000 0) = some (.inl .linkSameReg) := by decide
theorem test_nested_branch : stopped 0x0800C000 { start with br := some 0x80010014 } = some (.inl .nestedBranch) := by decide

/-! Section 2.4. -/

theorem test_lb : (ran 0x81090004 memStart).ld = some ⟨9, 0xFFFFFFBB⟩ ∧ (ran 0x81090004 memStart).reg 9 = 0xAABBCCDD := by decide
theorem test_lbu : (ran 0x91090004 memStart).ld = some ⟨9, 0x000000BB⟩ := by decide
theorem test_lh : (ran 0x85090004 memStart).ld = some ⟨9, 0xFFFFAABB⟩ ∧
    entry (ran 0x85090001 memStart) = (4, 0x80010000, false, 0x80000080) := by decide
theorem test_lhu : (ran 0x95090004 memStart).ld = some ⟨9, 0x0000AABB⟩ := by decide
theorem test_lw : (ran 0x8D090000 (with2 memStart 0xA0201000 0)).ld = some ⟨9, 0x11223344⟩ ∧
    (ran 0x8D090002 memStart).badVAddr = 0x80001002 := by decide
theorem test_lwl : (ran 0x89090001 memStart).ld = some ⟨9, 0x3344CCDD⟩ ∧ (ran 0x89090002 memStart).ld = some ⟨9, 0x223344DD⟩ := by decide
theorem test_lwr : (ran 0x99090001 memStart).ld = some ⟨9, 0xAA112233⟩ ∧ (ran 0x99090002 memStart).ld = some ⟨9, 0xAABB1122⟩ := by decide
theorem test_sb : wordAt (ran 0xA1090001 (with2 memStart 0x80001000 0x12345678)).mem 0x1000 = 0x11227844 := by decide
theorem test_sh : wordAt (ran 0xA5090002 (with2 memStart 0x80001000 0x12345678)).mem 0x1000 = 0x56783344 ∧
    (ran 0xA5090003 memStart).badVAddr = 0x80001003 := by decide
theorem test_sw : wordAt (ran 0xAD090000 (with2 memStart 0x80001000 0x12345678)).mem 0x1000 = 0x12345678 := by decide
theorem test_swl : wordAt (ran 0xA9090001 memStart).mem 0x1000 = 0x1122AABB ∧ wordAt (ran 0xA9090002 memStart).mem 0x1000 = 0x11AABBCC := by decide
theorem test_swr : wordAt (ran 0xB9090001 memStart).mem 0x1000 = 0xBBCCDD44 ∧ wordAt (ran 0xB9090002 memStart).mem 0x1000 = 0xCCDD3344 := by decide
theorem test_bus_faults : stopped 0x81090000 (with2 start 0x1F801080 0) = some (.inl .mmioWidth) ∧
    stopped 0x8D090000 (with2 start 0x1F000000 0) = some (.inl (.busFault 0x1F000000 4 .read)) := by decide
theorem test_user_mode : entry (ran 0x8D090000 userStart) = (4, 0x00010000, false, 0x80000080) ∧ (ran 0x8D090000 userStart).sr = 8 ∧
    (ran 0x8D090000 (with2 userStart 0x00001000 0)).ld = some ⟨9, 0x11223344⟩ := by decide

/-! Section 2.5. -/

theorem test_mfc0 : (ran 0x40086800 { start with iStat := 1, iMask := 1 }).ld = some ⟨8, 0x00000400⟩ ∧
    stopped 0x40083800 start = some (.inr .refuseDebug) := by decide
theorem test_mtc0 : causeWord (ran 0x40886800 { with2 start 0xFFFFFFFF 0 with cause := ⟨12, 0, 0, true⟩ }) = 0x80000330 ∧
    (ran 0x40887000 (with2 start 0x12345678 0)).epc = 0 := by decide
theorem test_rfe : (ran 0x42000010 { start with sr := 0x0000003C }).sr = 0x0000003F ∧
    stopped 0x42000001 start = some (.inr .refuseCop0Op) := by decide
theorem test_syscall : entry (ran 0x0000000C start) = (8, 0x80010000, false, 0x80000080) ∧
    (ran 0x0000000C { start with sr := 0x00400000 }).pc = 0xBFC00180 := by decide
theorem test_break : entry (ran 0x0000000D { start with br := some 0x80020000 }) = (9, 0x8000FFFC, true, 0x80000080) := by decide
theorem test_reserved : entry (ran 0xFC000000 start) = (10, 0x80010000, false, 0x80000080) := by decide
theorem test_cop_unusable : causeWord (ran 0x4A000000 userStart) = 0x2000002C ∧ (ran 0xC9000000 userStart).cause.ce = 2 ∧
    stopped 0x4A000000 { start with sr := 0x40000000 } = some (.inr .refuseCopz) := by decide

/-! Section 2.6. -/

theorem test_interrupt : entry (ran 0 { start with sr := 0x401, iStat := 1, iMask := 1 }) = (0, 0x80010000, false, 0x80000080) ∧
    (ran 0 { start with sr := 0x401, iStat := 1, iMask := 1 }).sr = 0x404 := by decide
theorem test_acknowledge : (ran 0xAD091070 { with2 start 0x1F800000 5 with iStat := 0xD }).iStat = 8 ∧
    (ran 0xAD091074 (with2 start 0x1F800000 0xFFFFFFFF)).iMask = 0x7FF := by decide
theorem test_nest_overflow : stopped 0xC { start with excDepth := 2 } = some (.inl .nestOverflow) := by decide

/-! Section 2.7. -/

/-- A channel's registers. -/
def chanOf (madr : BitVec 24) (bcr chcr : Word) (left : BitVec 17) : Channel :=
  { Channel.reset 0 with madr := madr, bcr := bcr, chcr := chcr, active := true, wkLeft := left }

/-- The linked list S4: two words, then the terminator. -/
def listStart : State :=
  let s := withWord (withWord (withWord (withWord start 0x1000 0x02001100) 0x1004 0xAAAA0001) 0x1008 0xAAAA0002) 0x1100 0x00FFFFFF
  setChan 2 (chanOf 0x1000 0 0x01000401 0)
    { s with dpcr := 0x07654B21, dicr := ⟨0, false, 4, true, 0⟩, dmaReady := s.dmaReady.set 2 true }

theorem test_linked_list : (dmaStep listStart).emitted = [.dmaWord 2 0xAAAA0001, .dmaWord 2 0xAAAA0002] ∧
    ((dmaStep listStart).chan 2).madr = 0x1100 ∧ (dmaStep (dmaStep listStart)).dicr.word = 0x84840000 ∧
    (dmaStep (dmaStep listStart)).iStat = 8 ∧ nextChan (dmaStep (dmaStep listStart)) = none := by decide

/-- Request mode DM2: two blocks of two words. -/
def requestStart : State :=
  setChan 0 (chanOf 0x2000 0x00020002 0x01000201 2)
    { withWord start 0x2000 0x100 with dpcr := 0x0765432B, dmaReady := start.dmaReady.set 0 true }

theorem test_request : ((dmaStep (dmaStep requestStart)).chan 0).bcr = 0x00010002 ∧
    ((dmaStep (dmaStep requestStart)).chan 0).madr = 0x2008 ∧
    ((dmaStep (dmaStep (dmaStep (dmaStep requestStart)))).chan 0).chcr = 0x201 := by decide

/-- DM3: readiness falls between two units of a catch-up, and no further unit is owed. -/
theorem test_request_readiness :
    (match step { dmaStep (dmaStep requestStart) with dmaOwed := true, agenda := [.setReady 0 false] } with
      | .next t => (catchingUp t, (t.chan 0).madr, (t.chan 0).bcr, (t.chan 0).chcr, (t.chan 0).active)
      | _ => (true, 0, 0, 0, false)) = (false, 0x2008, 0x00010002, 0x01000201, true) := by decide

/-- DM10: SYNC = 3. -/
theorem test_bad_sync : ((dmaStep (setChan 0 (chanOf 0x2000 0 0x01000601 0) requestStart)).chan 0).diag =
    [⟨.badSync, 0x2000, 0x00000601⟩] := by decide

/-- The ordering-table clear DM19. -/
def tableStart : State :=
  setChan 6 { Channel.reset 6 with madr := 0x108, bcr := 3, chcr := 0x11000002, active := true }
    { start with dpcr := 0x0F654321, dicr := ⟨0, false, 0x40, true, 0⟩ }

theorem test_ordering_table : wordAt (dmaStep tableStart).mem 0x100 = 0x00FFFFFF ∧ wordAt (dmaStep tableStart).mem 0x104 = 0x100 ∧
    wordAt (dmaStep tableStart).mem 0x108 = 0x104 ∧ (dmaStep tableStart).dicr.word = 0xC0C00000 := by decide

theorem test_dicr : (writeDicr 0x02840000 { start with dicr := ⟨0, false, 0, false, 6⟩ }).dicr.word = 0x84840000 ∧
    (writeDicr 0x00008000 start).dicr.word = 0x80008000 ∧ (writeDicr 0x00008000 start).iStat = 8 := by decide

theorem test_chcr : ((writeChcr 1 0xFFFFFFFF start).chan 1).chcr = 0x71770703 ∧
    ((writeChcr 6 0xFFFFFFFF start).chan 6).chcr = 0x51000002 := by decide

/-! Reset (S7) and section 2.8. -/

/-- The reset state steps over a nop of the BIOS (70_reset R462). -/
theorem test_reset_nop : (ran 0 State.reset).pc = 0xBFC00004 ∧ (ran 0 State.reset).br = none := by decide

/-- The counter-instance of the reset: `addu t0, t1, $zero` reads a register nothing has written. -/
theorem test_unwritten_read : stopped 0x01204021 (unsetFaults State.reset) = some (.inl .unwrittenRead) ∧
    stopped 0x01204021 State.reset = none := by decide

/-- 70_reset R464: a restore takes effect between steps. -/
theorem test_restore : (match step { start with agenda := [.restore { start.toSnapshot with pc := 0x80020000 }] } with
    | .next t => (t.pc, t.agenda)
    | _ => (0, [.cpu])) = (0x80020000, []) := by decide

/-- A nested branch is recorded and changes nothing else, and a reset() after it is taken (00_scope R13, 40_cpu_step R151). -/
theorem test_recorded : (let t := advance { withWord start 0x10000 0x08000000 with br := some 0, agenda := [.cpu, .hostReset] }
    (t.faults, t.pc, t.br, t.cycles, t.agenda)) = ([.nestedBranch], 0x80010000, some 0, 0, [.hostReset]) ∧
    (let t := advance { start with faults := [.nestedBranch], agenda := [.hostReset] }
    (t.faults, t.pc, t.agenda)) = ([], 0xBFC00000, []) := by decide

/-- 20_memory R108: an introspection write of CHCR begins no transfer. -/
theorem test_poke_chcr : ((introspectWrite 0x1F801088 .b32 0x11000201 start).chan 0).active = false ∧
    ((introspectWrite 0x1F801088 .b32 0x11000201 start).chan 0).chcr = 0x10000201 := by decide

theorem test_config_fault :
    stopped 0 { start with cfg := { start.cfg with external := [⟨1, 0x1F801070, 4, [.kuseg], 1⟩] } } = some (.inl .configFault) := by decide

/-! ## Witnesses: for every statement with hypotheses, states and operands that meet them, clause by clause. -/

/-- `start` with the lenient parameters of the reset state. -/
def lenient : State := { start with cfg := { start.cfg with busPolicy := .lenient, hiloHazard := .ignore, nestPolicy := .discardOldest } }

/-- t0 and t1 written, every other register not, and a read of one faults. -/
def written2 : State := unsetFaults (with2 start 1 1)

/-- The reads of the instructions that use t0 and t1 pass, under either policy. -/
theorem witness_reads : canReadAll start [8, 9] = true ∧ canReadAll written2 [8, 9] = true ∧ canReadAll written2 [0] = true ∧
    canReadHi start = true ∧ canReadLo { unsetFaults start with loWritten := true } = true := by decide

/-- `start` with the word `w` at its pc. -/
def placed (w : Word) : State := withWord start 0x10000 w

theorem witness_UnusedFieldsIgnored : decode 0x01095020#32 = .instr (.add 10 8 9) ∧
    (0xFFFFFFFF#32 &&& Instr.unusedBits (.add 10 8 9)) ≠ 0 ∧ Instr.canonicalWord (.add 10 8 9) 0x01095020#32 = true := by decide

theorem witness_StepRunsDecodedInstruction : cpuNext (placed 0x24080001) = true ∧ irqRequest (placed 0x24080001) = false ∧
    fetchFault (placed 0x24080001) = false ∧
    memRead (placed 0x24080001).pc .b32 (atFetch (placed 0x24080001)) = .ok (0x24080001, noteCall .ram (atFetch (placed 0x24080001))) ∧
    decode 0x24080001 = .instr (.addiu 8 0 1) ∧ ((placed 0x24080001).br.isSome && isBranch (.addiu 8 0 1)) = false :=
  ⟨by decide, by decide, by decide, by rfl, by decide, by decide⟩

theorem witness_FetchReadsMemory : memoryAt start.cfg start.pc = some (.ram, 0x10000) ∧
    memoryAt start.cfg 0xBFC7FFFC = some (.bios, 0x1FC7FFFC) ∧ memoryAt start.cfg 0x1F8003FC = some (.spad, 0x1F8003FC) ∧
    memoryAt start.cfg 0x807FFFFC = some (.ram, 0x001FFFFC) := by decide

theorem witness_StepsThatRunNoInstruction_before_fetch :
    (let s := { start with sr := 0x401, iStat := 1, iMask := 1 }; cpuNext s = true ∧ nestOk s = true ∧ irqRequest s = true) ∧
    (let s := { start with pc := 0x80010002 }; cpuNext s = true ∧ nestOk s = true ∧ irqRequest s = false ∧ s.pc.toNat % 4 ≠ 0) ∧
    (let s := { start with sr := 2, pc := 0x80000000 }
     cpuNext s = true ∧ nestOk s = true ∧ irqRequest s = false ∧ s.sr.getLsbD 1 = true ∧ s.pc.getLsbD 31 = true) := by decide

/-- The hypotheses on the fetch of one word. -/
def fetches (s : State) (w : Word) : Prop :=
  cpuNext s = true ∧ irqRequest s = false ∧ fetchFault s = false ∧ ∃ s', memRead s.pc .b32 (atFetch s) = .ok (w, s')

theorem witness_StepsThatRunNoInstruction_reserved : fetches (placed 0xFC000000) 0xFC000000 ∧
    decode 0xFC000000 = .reserved ∧ nestOk (placed 0xFC000000) = true :=
  ⟨⟨by decide, by decide, by decide, _, rfl⟩, by decide, by decide⟩

theorem witness_StepsThatRunNoInstruction_nested :
    fetches { placed 0x08000000 with br := some 0 } 0x08000000 ∧ decode 0x08000000 = .instr (.j 0) ∧ isBranch (.j 0) = true :=
  ⟨⟨by decide, by decide, by decide, _, rfl⟩, by decide, by decide⟩

theorem witness_StepsThatRunNoInstruction_regimm : fetches (placed 0x05020000) 0x05020000 ∧ decode 0x05020000 = .otherRegimm :=
  ⟨⟨by decide, by decide, by decide, _, rfl⟩, by decide⟩

theorem witness_StepsThatRunNoInstruction_cop0 : fetches (placed 0x42000001) 0x42000001 ∧ decode 0x42000001 = .otherCop0 ∧
    (placed 0x42000001).sr.getLsbD 1 = false ∧
    fetches { placed 0x42000001 with sr := 2, pc := 0x10000 } 0x42000001 ∧
    nestOk { placed 0x42000001 with sr := 2, pc := 0x10000 } = true :=
  ⟨⟨by decide, by decide, by decide, _, rfl⟩, by decide, by decide, ⟨by decide, by decide, by decide, _, rfl⟩, by decide⟩

theorem witness_DelaySlotGoesToTarget : isBranch (.addu 10 8 9) = false ∧ isBranch (.syscall 0) = false ∧
    (∃ t, exec (.addu 10 8 9) { start with br := some 0x80020000 } = .next t) ∧
    (∃ t, exec (.syscall 0) { start with br := some 0x80020000 } = .next t) := ⟨by decide, by decide, ⟨_, rfl⟩, ⟨_, rfl⟩⟩

theorem witness_LoadDelay : memoryAt memStart.cfg (effAddr 8 0 memStart) = some (.ram, 0x1000) ∧
    addrFault (effAddr 8 0 memStart) .b32 memStart = false ∧ srIsC memStart = false ∧ (9 : Reg) ≠ 0 ∧ (10 : Reg) ≠ 0 ∧
    (10 : Reg) ≠ 9 ∧ memStart.ld = none ∧ canReadAll memStart [8, 9, 9] = true ∧
    canReadAll (unsetFaults memStart) [8, 9, 9] = true := by decide

theorem witness_UnwrittenReads : start.cfg.unwritten = .draw ∧ (let s := unsetFaults start
    s.cfg.unwritten = .fault ∧ ((8 : Reg) ≠ 0 ∧ s.gpr.written.get (8 : Reg).toFin = false) ∧ s.hiloAge = 0 ∧
      s.hiWritten = false ∧ s.loWritten = false ∧ (8 : Reg) ≠ 31 ∧ (10 : Reg) ≠ 8 ∧ s.sr.getLsbD 1 = false) := by decide

/-- A store of the unset t2 through t0, and a merge into it. -/
theorem witness_UnwrittenReads_memory : (let s := unsetFaults memStart
    (s.gpr.written.get (10 : Reg).toFin = false ∧ srIsC s = false ∧ srKUc s = false ∧
      (s.reg 8 + (0 : BitVec 16).signExtend 32).toNat % 4 = 0 ∧ names s.ld 10 = false) ∧
    ∃ v s', memRead ((s.reg 8 + (0 : BitVec 16).signExtend 32) &&& 0xFFFFFFFC#32) .b32 s = .ok (v, s')) :=
  ⟨by decide, _, _, rfl⟩

theorem witness_AluRegisterResults : canReadAll written2 [8, 9] = true ∧ canReadAll State.reset [1, 2] = true := by decide

theorem witness_AluImmediateResults : canReadAll written2 [8] = true ∧ canReadAll written2 [] = true := by decide

theorem witness_ShiftResults : canReadAll written2 [9] = true ∧ canReadAll written2 [9, 8] = true := by decide

theorem witness_AluTrappingResults_fits : (let s := with2 start 0x7FFFFFFE 1; -(2 ^ 31) ≤ (s.reg 8).toInt + (s.reg 9).toInt ∧
      (s.reg 8).toInt + (s.reg 9).toInt ≤ 2 ^ 31 - 1) ∧
    (let s := with2 start 0x80000001 1; -(2 ^ 31) ≤ (s.reg 8).toInt - (s.reg 9).toInt) ∧
    canReadAll (with2 start 0x7FFFFFFE 1) [8, 9] = true := by decide

theorem witness_AluTrappingResults_overflows : nestOk start = true ∧
    (let s := with2 start 0x7FFFFFFF 1; ¬(s.reg 8).toInt + (s.reg 9).toInt ≤ 2 ^ 31 - 1) ∧
    (let s := with2 start 0x80000000 1; ¬-(2 ^ 31) ≤ (s.reg 8).toInt - (s.reg 9).toInt) ∧
    canReadAll (with2 start 0x7FFFFFFF 1) [8, 9] = true := by decide

theorem witness_MultiplyResults : start.hiloAge = 0 ∧ ({ lenient with hiloAge := 2 } : State).cfg.hiloHazard = .ignore ∧
    canReadAll start [8, 9] = true ∧ canReadAll { lenient with hiloAge := 2 } [8, 9] = true := by decide

theorem witness_DivideResults : (with2 start 7 1).hiloAge = 0 ∧ (with2 start 7 1).reg 9 ≠ 0 ∧
    ¬((with2 start 0x80000000 1).reg 8 = 0x80000000#32 ∧ (with2 start 0x80000000 1).reg 9 = 0xFFFFFFFF#32) ∧
    (with2 start 7 1).reg 9 ≠ 0 ∧
    canReadAll (with2 start 7 1) [8, 9] = true := by decide

theorem witness_DivideCorners_table : start.hiloAge = 0 ∧ start.cfg.divCorner = .chipTable ∧
    ((with2 start 0 0).reg 9 = 0 ∧ 0 ≤ ((with2 start 0 0).reg 8).toInt) ∧
    ((with2 start 0xFFFFFFFF 0).reg 9 = 0 ∧ ((with2 start 0xFFFFFFFF 0).reg 8).toInt < 0) ∧
    ((with2 start 0x80000000 0xFFFFFFFF).reg 8 = 0x80000000#32 ∧ (with2 start 0x80000000 0xFFFFFFFF).reg 9 = 0xFFFFFFFF#32) ∧
    canReadAll (unsetFaults (with2 start 0 0)) [8, 9] = true := by decide

theorem witness_DivideCorners_other : (let s := { start with cfg := { start.cfg with divCorner := .other 1 } }
    s.hiloAge = 0 ∧ s.cfg.divCorner = .other 1 ∧ s.reg 9 = 0) := by decide

theorem witness_HiLoMoves : start.hiloAge = 0 ∧ canReadHi start = true ∧ canReadLo start = true ∧ canReadAll start [8] = true ∧
    canReadHi (unsetFaults start) = false ∧ canReadHi { unsetFaults start with hiWritten := true } = true := by decide

theorem witness_HiLoHazardFaults : (let s := { start with hiloAge := 1 }; 0 < s.hiloAge.val ∧ s.cfg.hiloHazard = .fault) ∧
    lenient.cfg.hiloHazard = .ignore ∧ canReadAll lenient [8, 9] = true := by decide

theorem witness_JumpResults : canReadAll start [31] = true ∧ canReadAll written2 [8] = true := by decide

theorem witness_ConditionalBranchResults : (with2 start 1 1).reg 8 = (with2 start 1 1).reg 9 ∧
    (with2 start 1 2).reg 8 ≠ (with2 start 1 2).reg 9 ∧ ((with2 start 0 0).reg 8).toInt ≤ 0 ∧ 0 < ((with2 start 1 0).reg 8).toInt ∧
    ((with2 start 0xFFFFFFFF 0).reg 8).toInt < 0 ∧ 0 ≤ ((with2 start 0 0).reg 8).toInt ∧
    canReadAll (unsetFaults (with2 start 1 2)) [8, 9] = true ∧ canReadAll start [8] = true := by decide

theorem witness_LinkingResults : ((31 : Reg) ≠ 8 ∨ (31 : Reg) = 0) ∧ ((0 : Reg) ≠ 0 ∨ (0 : Reg) = 0) ∧ ((1 : Reg) = 1 ∧ (1 : Reg) ≠ 0) ∧ (30 : Reg) ≠ 31 ∧ ((with2 start 0xFFFFFFFF 0).reg 8).toInt < 0 ∧ 0 ≤ ((with2 start 0 0).reg 8).toInt ∧
    canReadAll start [8] = true ∧ canReadAll written2 [0] = true := by decide


/-- The conditions of an access by t0 plus `off`: the registers read, handler and cell, isolation, mode. -/
def reaches (s : State) (off : BitVec 16) (h : Handler) (a : Nat) : Prop :=
  canReadAll s [8, 9] = true ∧ memoryAt s.cfg (s.reg 8 + off.signExtend 32) = some (h, a) ∧ srIsC s = false ∧
    (srKUc s = true → (s.reg 8 + off.signExtend 32).getLsbD 31 = false)

theorem witness_LoadResults : reaches (with2 start 0x807FFFFF 0) 0 .ram 0x1FFFFF ∧ reaches (with2 start 0xBFC7FFFE 0) 0 .bios 0x1FC7FFFE ∧
    reaches (with2 userStart 0x1F8003FC 0) 0 .spad 0x1F8003FC ∧ ((with2 start 0xBFC7FFFE 0).reg 8 + 0).toNat % 2 = 0 ∧
    ((with2 userStart 0x1F8003FC 0).reg 8 + 0).toNat % 4 = 0 :=
  ⟨⟨by decide, by decide, by decide, by decide⟩, ⟨by decide, by decide, by decide, by decide⟩, ⟨by decide, by decide, by decide, by decide⟩, by decide, by decide⟩

theorem witness_UnalignedLoadResults : memoryAt memStart.cfg ((memStart.reg 8 + (3 : BitVec 16).signExtend 32) &&& 0xFFFFFFFC#32) = some (.ram, 0x1000) ∧
    srIsC memStart = false ∧ srKUc memStart = false ∧ (memStart.reg 8 + (0 : BitVec 16).signExtend 32).toNat % 4 = 0 ∧
    (memStart.reg 8 + (1 : BitVec 16).signExtend 32).toNat % 4 = 1 ∧ (memStart.reg 8 + (2 : BitVec 16).signExtend 32).toNat % 4 = 2 ∧
    (memStart.reg 8 + (3 : BitVec 16).signExtend 32).toNat % 4 = 3 ∧ canReadAll memStart [9] = true ∧
    names ({ unsetFaults memStart with ld := some ⟨10, 5⟩ } : State).ld 10 = true ∧ canReadAll (unsetFaults memStart) [10] = false ∧
    canReadAll (unsetFaults memStart) [8] = true := by decide

theorem witness_StoreResults : reaches (with2 start 0x80000000 0) 0 .ram 0 ∧ reaches (with2 start 0xBFC00000 0) 0 .bios 0x1FC00000 ∧
    reaches (with2 userStart 0x1F800000 0) 0 .spad 0x1F800000 ∧ ((with2 start 0x80000000 0).reg 8 + 0).toNat % 4 = 0 :=
  ⟨⟨by decide, by decide, by decide, by decide⟩, ⟨by decide, by decide, by decide, by decide⟩, ⟨by decide, by decide, by decide, by decide⟩, by decide⟩

theorem witness_UnalignedStoreResults : memoryAt memStart.cfg ((memStart.reg 8 + (3 : BitVec 16).signExtend 32) &&& 0xFFFFFFFC#32) = some (.ram, 0x1000) ∧
    memoryAt start.cfg ((0xBFC7FFFF#32) &&& 0xFFFFFFFC#32) = some (.bios, 0x1FC7FFFC) ∧ srIsC memStart = false ∧ srKUc memStart = false ∧
    canReadAll memStart [8, 9] = true := by
  decide

theorem witness_AccessesThroughTheBus_reads : canReadAll start [8, 9] = true ∧ srIsC start = false ∧ srKUc start = false ∧
    (0x1F801074 : Word).toNat % widthBytes .b32 = 0 ∧ (∃ v s', memRead 0x1F801074 .b32 start = .ok (v, s')) ∧
    memRead 0x1F801074 .b8 start = .error .mmioWidth ∧ memRead 0x1F000000 .b32 start = .error (.busFault 0x1F000000 4 .read) :=
  ⟨by decide, by decide, by decide, by decide, ⟨_, _, rfl⟩, by rfl, by rfl⟩

theorem witness_AccessesThroughTheBus_writes : (∃ s', memWrite 0x1F801074 .b32 0xFFFFFFFF start = .ok s') ∧
    memWrite 0x1F801074 .b8 0xFF start = .error .mmioWidth ∧
    ((with2 start 0x1F801077 0).reg 8).toNat % 4 = 3 ∧ ((with2 start 0x1F801074 0).reg 8).toNat % 4 = 0 :=
  ⟨⟨_, rfl⟩, by rfl, by decide, by decide⟩

theorem witness_DataAddressErrors : nestOk start = true ∧ ((with2 start 0x80001001 0).reg 8).toNat % 2 ≠ 0 ∧
    ((with2 start 0x80001002 0).reg 8).toNat % 4 ≠ 0 ∧ nestOk userStart = true ∧ userStart.sr.getLsbD 1 = true ∧
    (userStart.reg 8).getLsbD 31 = true ∧
    canReadAll (with2 start 0x80001001 1) [8] = true ∧ canReadAll userStart [8] = true := by decide

theorem witness_CacheIsolation : (let s := { memStart with sr := 0x00010000 }
    s.sr.getLsbD 16 = true ∧ s.sr.getLsbD 1 = false ∧ (s.reg 8).toNat % 4 = 0 ∧ canReadAll s [8] = true) ∧
    (let s := { with2 start 0x1000 0 with sr := 0x00010002 }; s.sr.getLsbD 16 = true ∧ (s.reg 8).getLsbD 31 = false) := by decide

theorem witness_MemoryMap : (0x007FFFFF : Word).toNat < 0x00800000 ∧ (0x3FF : Word).toNat < 0x400 ∧ (0x7FFFF : Word).toNat < 0x80000 ∧
    start.cfg.external = [] ∧ memoryAt start.cfg 0x807FFFFF = some (.ram, 0x1FFFFF) ∧ memoryAt start.cfg 0x80800000 = none ∧
    memoryAt start.cfg 0x9F8003FF = some (.spad, 0x1F8003FF) ∧ memoryAt start.cfg 0x1F800400 = none ∧
    memoryAt start.cfg 0xBFC7FFFF = some (.bios, 0x1FC7FFFF) ∧ memoryAt start.cfg 0xBFC80000 = none := by decide

theorem witness_UnmappedAccess : lookup start.cfg (physAddr 0x80800000).toNat (segmentOf 0x80800000) = none ∧ start.cfg.busPolicy = .strict ∧
    lookup lenient.cfg (physAddr 0xC0001000).toNat (segmentOf 0xC0001000) = none ∧ lenient.cfg.busPolicy = .lenient := by decide

theorem witness_DmaWindowAndCacheControl : start.cfg.busPolicy = .strict ∧ lenient.cfg.busPolicy = .lenient := by decide

/-- A window at 0x1F801800 of 16 bytes. -/
def window : Window := ⟨7, 0x1F801800, 16, [.kuseg, .kseg1], 4⟩

theorem witness_ExternalWindowAccess : lookup { start.cfg with external := [window] } (physAddr 0xBF80180C).toNat (segmentOf 0xBF80180C) =
    some ⟨0x1F801800, 16, .external window, [.kuseg, .kseg1]⟩ := by decide

theorem witness_MoveFromCop0Results : start.sr.getLsbD 1 = false ∧ ({ start with sr := 0x10000002 } : State).sr.getLsbD 28 = true ∧
    16 ≤ (16 : Reg).toNat ∧ 16 ≤ (31 : Reg).toNat := by decide

theorem witness_MoveToCop0Results : start.sr.getLsbD 1 = false ∧ (with2 start 0 1).reg 8 = 0 ∧ (with2 start 0 1).reg 9 ≠ 0 ∧
    16 ≤ (16 : Reg).toNat ∧
    canReadAll (with2 start 0 1) [8] = true ∧ canReadAll (with2 start 0 1) [9] = true := by decide

theorem witness_ReturnFromExceptionResult : (let u : State := { start with sr := 2 }; u.sr.getLsbD 1 = true ∧ u.sr.getLsbD 28 = false ∧ nestOk u = true) ∧
    start.sr.getLsbD 1 = false ∧ ({ start with sr := 0x10000002 } : State).sr.getLsbD 28 = true := by decide

theorem witness_CoprocessorUsability : nestOk userStart = true ∧ copUsable 0 userStart = false ∧ copUsable 1 userStart = false ∧
    copUsable 2 userStart = false ∧ copUsable 3 userStart = false ∧ copUsable 0 start = true ∧
    (let s := { start with sr := 0xE0000000 }; copUsable 1 s = true ∧ copUsable 2 s = true ∧ copUsable 3 s = true) := by decide

theorem witness_SystemInstructions : nestOk start = true ∧ nestOk { lenient with excDepth := 2 } = true := by decide

theorem witness_ExceptionEntry : nestOk { start with excDepth := 1 } = true ∧ nestOk { lenient with excDepth := 2 } = true := by decide

theorem witness_NestedEntryBeyondTwo : ({ start with excDepth := 1 } : State).excDepth.val < 2 ∧
    (let s := { start with excDepth := 2 }; s.excDepth = 2 ∧ s.cfg.nestPolicy = .fault) ∧
    (let s := { lenient with excDepth := 2 }; s.excDepth = 2 ∧ s.cfg.nestPolicy = .discardOldest) := by decide

theorem witness_RaisedLines : (let s := { start with sr := 0x401, iStat := 2, iMask := 1 }
    s.sr.getLsbD 0 = true ∧ s.sr.getLsbD 10 = true ∧ s.iStat &&& s.iMask = 0 ∧ s.cause.ip &&& s.sr.extractLsb' 8 2 = 0 ∧
      s.iMask.getLsbD 10 = false ∧ (0x400 : Word).getLsbD 10 = true) := by decide

/-- The clauses of AgendaTurns: device events with and without a unit owed; owed units before a host entry and as a DMA turn;
chosen DMA turns; host entries. -/
theorem witness_AgendaTurns_events : (let s := { start with agenda := [.raise 10] }; configOk s = true ∧ catchingUp s = false) ∧
    (let s := { listStart with dmaOwed := true, agenda := [.setReady 6 true, .cpu] }
     configOk s = true ∧ catchingUp s = true ∧ s.agenda = .setReady 6 true :: [.cpu]) := by decide

theorem witness_AgendaTurns_owed : (let s := { listStart with dmaOwed := true, agenda := [.hostReset] }
    configOk s = true ∧ s.faults = [] ∧ s.refused = false ∧ nextChan s = some 2 ∧ s.dmaOwed = true ∧ nextTurn s = .hostReset) ∧
    (let s := { listStart with dmaOwed := true, agenda := [.dma] }; nextChan s = some 2 ∧ s.agenda = .dma :: []) := by decide

theorem witness_AgendaTurns_chosen : (let s := { listStart with agenda := [.dma, .cpu] }
    configOk s = true ∧ s.faults = [] ∧ s.refused = false ∧ s.dmaOwed = false ∧ s.cfg.schedule = .eager) ∧
    (let s := { listStart with cfg := { listStart.cfg with schedule := .free }, agenda := [.dma, .cpu] }
     nextChan s = some 2 ∧ s.dmaOwed = false ∧ s.agenda = .dma :: [.cpu] ∧ s.cfg.schedule = .free) ∧
    nextChan start = none := by decide

theorem witness_AgendaTurns_host : (let s := { start with agenda := [.restore start.toSnapshot, .hostReset] }
    configOk s = true ∧ catchingUp s = false ∧ s.agenda = .restore start.toSnapshot :: [.hostReset]) ∧
    (let s := { start with agenda := [.poke 0x1F801074 .b32 5] }; configOk s = true ∧ catchingUp s = false) ∧
    (let s := { start with agenda := [.pokeReg .pc 0] }; configOk s = true ∧ catchingUp s = false) := by decide

/-- COP1 without CU1 at its own handler's address: every step enters CpU there again. -/
def loop (c : Nat) : State :=
  { State.reset with
    mem := writeMem [] 0x80 .b32 0x44000000
    pc := 0x80000080
    epc := 0x80000080
    cause := ⟨11, 0, 1, false⟩
    excDepth := 2
    sr := 0
    cycles := c
    busCalls := 1
    dmaOwed := true
    cfg := { State.reset.cfg with schedule := .free } }

/-- `loop c` after its fetch. -/
def looped (c : Nat) : State := noteCall .ram (atFetch (loop c))

theorem loop_facts (c : Nat) : configOk (loop c) = true ∧ catchingUp (loop c) = false ∧ live (loop c) = true ∧
    irqRequest (atFetch (loop c)) = false ∧ fetchFault (atFetch (loop c)) = false ∧ copUsable 1 (looped c) = false ∧
    nestOk (looped c) = true ∧ excVector (looped c) = 0x80000080 ∧ pushMode (looped c).sr = 0 ∧
    memoryAt (atFetch (loop c)).cfg (atFetch (loop c)).pc = some (.ram, 0x80) ∧ wordAt (atFetch (loop c)).mem 0x80 = 0x44000000 :=
  (by decide : configOk (loop 0) = true ∧ catchingUp (loop 0) = false ∧ live (loop 0) = true ∧
    irqRequest (atFetch (loop 0)) = false ∧ fetchFault (atFetch (loop 0)) = false ∧ copUsable 1 (looped 0) = false ∧
    nestOk (looped 0) = true ∧ excVector (looped 0) = 0x80000080 ∧ pushMode (looped 0).sr = 0 ∧
    memoryAt (atFetch (loop 0)).cfg (atFetch (loop 0)).pc = some (.ram, 0x80) ∧ wordAt (atFetch (loop 0)).mem 0x80 = 0x44000000)

theorem loop_step (c : Nat) : step (loop c) = .next (loop (c + latencyOf .ram)) := by
  obtain ⟨h1, h2, h3, h4, h5, h6, h7, h8, h9, h10, h11⟩ := loop_facts c
  have hm : memRead (atFetch (loop c)).pc .b32 (atFetch (loop c)) = .ok (0x44000000, looped c) := by
    rw [memRead_memory h10, readMem_b32, h11]; rfl
  have hs : step (loop c) = ifEnabled (startTurn (loop c)) (cpuStep (startTurn (loop c))) := by
    simp only [step, guarded, h1, transition, h2, if_true, Bool.false_eq_true, if_false]
    rfl
  rw [hs, ifEnabled_of_live (s := startTurn (loop c)) h3, show cpuStep (startTurn (loop c)) = fetchAndRun (atFetch (loop c)) from rfl, fetchAndRun, h4, h5, hm]
  simp only [Bool.false_eq_true, if_false]
  rw [(by decide : decode 0x44000000 = .instr (.cop1 0))]
  simp only [runDecoded, isBranch, Bool.and_false, Bool.false_eq_true, if_false, exec, execCop1, copGroup, ifUsable, h6]
  rw [enterException_of_nestOk _ h7]
  unfold excEntry
  rw [h8, h9]
  rfl

theorem witness_RunsAreFair : Run (fun k => loop (k * latencyOf .ram)) ∧ (loop 0).cfg.schedule = .free :=
  ⟨fun k => by simp only [Nat.succ_mul]; exact loop_step _, by decide⟩

/-- A state that meets the invariant. -/
theorem start_inv : Inv start := ⟨⟨by decide, by decide, by decide⟩, by simp [start, State.reset], by decide⟩

theorem witness_HostStepIsTransitions : Inv start ∧ start.agenda = [] ∧ start.dmaOwed = false ∧ start.cfg.schedule = .eager ∧
    (∃ t, stepN 1 start = .next t ∧ dmaEnabled t = false) ∧ (∃ u n, hostStep 0 start = some (.next (u, n))) ∧
    (∃ t, step { start with cfg := { start.cfg with schedule := .free } } = .next t) ∧
    hostStep 0 { start with faults := [.nestedBranch] } = some (.fault .nestedBranch) ∧
    hostStep 0 { start with refused := true } = some (.refused .markedRefused) :=
  ⟨start_inv, rfl, rfl, rfl, ⟨_, rfl, by decide⟩, ⟨_, _, rfl⟩, ⟨_, rfl⟩, rfl, rfl⟩

/-- The list of two nodes: after the CPU step two units are needed, so a bound of one gives none. -/
theorem witness_HostStepIsTransitions_units : (hostStep 1 listStart).isNone = true ∧ (hostStep 2 listStart).isSome = true ∧
    (match stepN 2 listStart with | .next t => dmaEnabled t | _ => false) = true ∧
    (match stepN 3 listStart with | .next t => dmaEnabled t | _ => true) = false := by decide

theorem witness_Introspection : memoryAt start.cfg 0xBFC7FFFC = some (.bios, 0x1FC7FFFC) ∧
    (0xBFC7FFFC : Word).toNat % widthBytes .b32 = 0 ∧ (0xBFC7FFFE : Word).toNat % widthBytes .b16 = 0 ∧
    lookup start.cfg (physAddr 0xC0001000).toNat (segmentOf 0xC0001000) = none ∧ (0x80001002 : Word).toNat % widthBytes .b32 ≠ 0 := by decide

theorem witness_ChannelControlWrite : (requestStart.chan 0).active = true ∧ (0x01000200 : Word).getLsbD 0 ≠ (requestStart.chan 0).chcr.getLsbD 0 ∧
    (0x00000201 : Word).getLsbD 24 = false ∧ (0x00000201 : Word).getLsbD 0 = (requestStart.chan 0).chcr.getLsbD 0 ∧
    (0x01000201 : Word).getLsbD 24 = true ∧ (start.chan 0).active = false ∧ (start.chan 0).chcr.getLsbD 24 = false := by decide

theorem witness_DmaScheduling : nextChan listStart = some 2 ∧ serviceable listStart 2 = true ∧ listStart.cfg.arbiter = .ps1 ∧
    serviceable requestStart 0 = true := by decide

/-- A channel with SYNC = 3. -/
theorem witness_DmaEndings : ((setChan 0 (chanOf 0 0 0x01000601 0) start).chan 0).chcr.extractLsb' 9 2 = 3 := by decide

/-- Channel 3 in manual mode, `chcr` and `madr` as given, one word. -/
def manualStart (madr : BitVec 24) (chcr : Word) : State := setChan 3 (chanOf madr 1 chcr 0) start

theorem witness_ManualTransfer : (3 : Chan) ≠ 6 ∧ ((manualStart 0x1FFFFC 0x11000001).chan 3).chcr.extractLsb' 9 2 = 0 ∧
    ((manualStart 0x1FFFFC 0x11000001).chan 3).madr.toNat % 4 = 0 ∧ ((manualStart 0x1FFFFC 0x11000001).chan 3).madr.toNat < 0x00200000 ∧
    ((manualStart 0x1FFFFC 0x11000001).chan 3).chcr.getLsbD 0 = true ∧ ((manualStart 0 0x11000000).chan 3).chcr.getLsbD 0 = false ∧
    ¬((manualStart 0x200000 0x11000000).chan 3).madr.toNat < 0x00200000 := by decide

/-- Channel 0 in request mode. -/
def requestOf (madr : BitVec 24) (bcr : Word) (left : BitVec 17) : State := setChan 0 (chanOf madr bcr 0x01000201 left) start

/-- The clauses of one request unit: no blocks, a bad address, then good ones with more words, more blocks and neither left. -/
theorem witness_RequestTransfer : ((requestOf 0 0x00000010 0).chan 0).chcr.extractLsb' 9 2 = 1 ∧
    ((requestOf 0 0x00000010 0).chan 0).bcr.extractLsb' 16 16 = 0 ∧
    ¬((requestOf 0x200000 0x00010001 1).chan 0).madr.toNat < 0x00200000 ∧ ((requestOf 0x1FFFFC 0x00020002 2).chan 0).wkLeft ≠ 1 ∧
    ((requestOf 0x1FFFFC 0x00020002 1).chan 0).wkLeft = 1 ∧ ((requestOf 0x1FFFFC 0x00020002 1).chan 0).bcr.extractLsb' 16 16 ≠ 1 ∧
    ((requestOf 0x1FFFFC 0x00010002 1).chan 0).bcr.extractLsb' 16 16 = 1 ∧
    ((requestOf 0x1FFFFC 0x00010002 1).chan 0).chcr.getLsbD 0 = true := by decide

/-- Channel 2 at a linked-list header. -/
def listOf (hdr : Word) (madr : BitVec 24) (chcr : Word) : State := setChan 2 (chanOf madr 0 chcr 0) (withWord start 0x1FFFF8 hdr)

/-- The clauses of one linked-list unit: by direction, header address, count and next pointer. -/
theorem witness_LinkedListTransfer : ((listOf 0 0 0x01000400).chan 2).chcr.extractLsb' 9 2 = 2 ∧
    ((listOf 0 0 0x01000400).chan 2).chcr.getLsbD 0 = false ∧ ((listOf 0 0x1FFFFA 0x01000401).chan 2).madr.toNat % 4 ≠ 0 ∧
    ((listOf 0 0x1FFFF8 0x01000401).chan 2).chcr.getLsbD 0 = true ∧
    (0 < 2 ∧ wordAt (listOf 0x02000000 0x1FFFF8 0x01000401).mem 0x1FFFF8 = 0x02000000 ∧ ¬0x1FFFF8 + 4 * 2 < 0x00200000) ∧
    (wordAt (listOf 0x01FFFFFF 0x1FFFF8 0x01000401).mem 0x1FFFF8 = 0x01FFFFFF ∧ 0x1FFFF8 + 4 * 1 < 0x00200000) ∧
    wordAt (listOf 0x00001002 0x1FFFF8 0x01000401).mem 0x1FFFF8 = 0x00001002 ∧
    wordAt (listOf 0x00001000 0x1FFFF8 0x01000401).mem 0x1FFFF8 = 0x00001000 := by decide

theorem witness_OrderingTableClear : (tableStart.chan 6).chcr.extractLsb' 9 2 = 0 ∧ (tableStart.chan 6).madr.toNat % 4 = 0 ∧
    4 * ((tableStart.chan 6).bcr.toNat % 65536 - 1) ≤ (tableStart.chan 6).madr.toNat ∧
    (let s := setChan 6 { tableStart.chan 6 with madr := 4 } tableStart
     ¬4 * ((s.chan 6).bcr.toNat % 65536 - 1) ≤ (s.chan 6).madr.toNat) := by decide

theorem witness_ResetStateStarts : hostReset start = hostReset (hostReset start) ∧ cpuNext (hostReset start) = true ∧
    wordAt (hostReset start).mem 0x1FC00000 = 0#32 := ⟨rfl, by decide, by decide⟩

theorem witness_StepKeepsInvariant :
    (Inv (placed 0x24080001) ∧ ∃ t, step (placed 0x24080001) = .next t) ∧
    (Inv { start with agenda := [.restore start.toSnapshot] } ∧ ∃ t, step { start with agenda := [.restore start.toSnapshot] } = .next t) :=
  ⟨⟨⟨⟨by decide, by decide, by decide⟩, by simp [placed, withWord, start, State.reset], by decide⟩, ⟨_, rfl⟩⟩,
    ⟨⟨start_inv.now, fun snap h => by simpa [(Turn.restore.inj (List.mem_singleton.mp h))] using start_inv.now, by decide⟩,
      ⟨_, rfl⟩⟩⟩

theorem witness_UserModeCannotChangeCop0 : userStart.sr.getLsbD 1 = true ∧ userStart.sr.getLsbD 28 = false ∧
    ∃ t, cpuStep userStart = .next t := ⟨by decide, by decide, ⟨_, rfl⟩⟩

theorem witness_StoppedStatesStayStopped_stops : (∃ t, step start = .next t) ∧
    step { placed 0x08000000 with br := some 0 } = .fault .nestedBranch ∧ step (placed 0x42000001) = .refused .refuseCop0Op :=
  ⟨⟨_, rfl⟩, rfl, rfl⟩

theorem witness_StoppedStatesStayStopped : (let s := { start with faults := [.nestedBranch] }; s.faults = .nestedBranch :: []) ∧
    (let s := { start with refused := true }; s.faults = [] ∧ s.refused = true) ∧
    (let s := { start with cfg := { start.cfg with external := [⟨1, 0x1F801070, 4, [.kuseg], 1⟩] } }
     s.faults = [] ∧ s.refused = false ∧ configOk s = false) ∧ configOk start = true ∧ nextTurn start = .cpu ∧
    nextTurn { start with agenda := [.dma] } = .dma ∧
    (let s := { start with agenda := [.hostReset, .cpu], faults := [.nestedBranch] }
     s.agenda = .hostReset :: [.cpu] ∧ configOk s = true ∧ s.faults ≠ []) ∧
    configOk { start with toSnapshot := (setChan 6 { start.chan 6 with chcr := 0 } start).toSnapshot } = false := by decide

end Sys2Proof.Tests
end

section
/-! SUPPORT. Where the fault UnwrittenRead comes from (10_state R31, log 11): no bus access answers it, and no instruction under the
policy `draw`; under the policy `fault` it is what an instruction answers at the first read of a register nothing has written. -/

namespace Sys2Proof.Machine

/-- The faults of 20_memory: those a bus access can answer. -/
abbrev IsBusError (e : Fault) : Prop := e = .mmioWidth ∨ ∃ p n d, e = .busFault p n d

theorem unmappedRead_error {p : Word} {w : Width} {s : State} {e : Fault} (h : unmappedRead p w s = .error e) :
    IsBusError e := by
  unfold unmappedRead at h
  split at h
  · simp at h
  · exact .inr ⟨_, _, _, (Except.error.inj h).symm⟩

theorem unmappedWrite_error {p : Word} {w : Width} {s : State} {e : Fault} (h : unmappedWrite p w s = .error e) :
    IsBusError e := by
  unfold unmappedWrite at h
  split at h
  · simp at h
  · exact .inr ⟨_, _, _, (Except.error.inj h).symm⟩

theorem memRead_error {a : Word} {w : Width} {s : State} {e : Fault} (h : memRead a w s = .error e) : IsBusError e := by
  unfold memRead at h
  split at h
  · exact unmappedRead_error h
  · unfold entryRead at h
    split at h
    · simp at h
    · split at h
      · simp at h
      · exact unmappedRead_error h
      · exact .inl (Except.error.inj h).symm

theorem memWrite_error {a : Word} {w : Width} {v : Word} {s : State} {e : Fault} (h : memWrite a w v s = .error e) :
    IsBusError e := by
  unfold memWrite at h
  split at h
  · exact unmappedWrite_error h
  · unfold entryWrite at h
    split at h
    · simp at h
    · split at h
      · simp at h
      · exact unmappedWrite_error h
      · exact .inl (Except.error.inj h).symm

theorem writeEach_error {a : Word} {bs : List (Nat × Byte)} {s : State} {e : Fault} (h : writeEach a bs s = .error e) :
    IsBusError e := by
  induction bs generalizing s with
  | nil => simp [writeEach] at h
  | cons b rest ih =>
    simp only [writeEach] at h
    split at h
    · next hw => exact memWrite_error (Except.error.inj h ▸ hw)
    · exact ih h

theorem storeBytes_error {a : Word} {bs : List (Nat × Byte)} {r : Word} {s : State} {e : Fault}
    (h : storeBytes a bs r s = .error e) : IsBusError e := by
  unfold storeBytes at h
  split at h
  · exact memWrite_error h
  · exact writeEach_error h

theorem next_ne_fault (t : State) (f : Fault) : (.next t : Result) ≠ .fault f := by simp

theorem refused_ne_fault (r : Refusal) (f : Fault) : (.refused r : Result) ≠ .fault f := by simp

theorem not_isBusError_unwrittenRead : ¬ IsBusError .unwrittenRead := by simp [IsBusError]

/-! Under the policy `draw`: what the parts of an instruction answer is no UnwrittenRead. -/

theorem enterException_ne_unwrittenRead (x : Exc) (s : State) : enterException x s ≠ .fault .unwrittenRead := by
  unfold enterException
  split <;> simp

theorem retireUnless_ne_unwrittenRead (o : Bool) (r : Reg) (v : Word) (s : State) :
    retireUnless o r v s ≠ .fault .unwrittenRead := by
  unfold retireUnless
  split
  · exact enterException_ne_unwrittenRead _ _
  · exact next_ne_fault _ _

theorem afterRead_ne_unwrittenRead {ok : Bool} {run : Result} (hok : ok = true) (h : run ≠ .fault .unwrittenRead) :
    afterRead ok run ≠ .fault .unwrittenRead := by
  rwa [hok, afterRead_true]

theorem checkHiLo_ne_unwrittenRead {s : State} {run : Result} (h : run ≠ .fault .unwrittenRead) :
    checkHiLo s run ≠ .fault .unwrittenRead := by
  unfold checkHiLo
  split
  · simp
  · exact h

theorem ifUsable_ne_unwrittenRead {z : BitVec 2} {s : State} {run : Result} (h : run ≠ .fault .unwrittenRead) :
    ifUsable z s run ≠ .fault .unwrittenRead := by
  unfold ifUsable
  split
  · exact h
  · exact enterException_ne_unwrittenRead _ _

theorem loadVia_ne_unwrittenRead {chk w : Width} {ea a : Word} {rt : Reg} {merged : Bool} {f : Word → Word} {s : State}
    (hm : merged = true) : loadVia chk w ea a rt merged f s ≠ .fault .unwrittenRead := by
  unfold loadVia
  split
  · exact enterException_ne_unwrittenRead _ _
  · split
    · simp
    · split
      · next hr => exact fun he => not_isBusError_unwrittenRead (memRead_error (Host.Outcome.fault.inj he ▸ hr))
      · simp [hm]

theorem storeVia_ne_unwrittenRead {chk : Width} {ea : Word} {rt : Reg} {put : State → Except Fault State} {s : State}
    (hd : s.cfg.unwritten = .draw) (hput : ∀ e, put s = .error e → IsBusError e) :
    storeVia chk ea rt put s ≠ .fault .unwrittenRead := by
  unfold storeVia
  split
  · exact enterException_ne_unwrittenRead _ _
  · split
    · simp
    · refine afterRead_ne_unwrittenRead (canReadAll_of_draw hd _) ?_
      split
      · next hp => exact fun he => not_isBusError_unwrittenRead (hput _ (Host.Outcome.fault.inj he ▸ hp))
      · simp

theorem canMerge_of_draw {s : State} (h : s.cfg.unwritten = .draw) (rt : Reg) : canMerge rt s = true := by
  simp [canMerge, canRead, h]

/-- Under the policy `draw` every read finds a value, so no instruction faults for want of one (10_state R31). -/
theorem exec_ne_unwrittenRead_of_draw {s : State} (hd : s.cfg.unwritten = .draw) (i : Instr) :
    exec i s ≠ .fault .unwrittenRead := by
  have reads : ∀ {rs : List Reg} {run : Result}, run ≠ .fault .unwrittenRead →
      afterRead (canReadAll s rs) run ≠ .fault .unwrittenRead :=
    fun h => afterRead_ne_unwrittenRead (canReadAll_of_draw hd _) h
  cases i with
  | add rd rs rt | sub rd rs rt | addi rt rs imm => exact reads (retireUnless_ne_unwrittenRead _ _ _ _)
  | j target | jal target | lui rt imm => exact next_ne_fault _ _
  | jalr rd rs | bltzal rs imm | bgezal rs imm =>
    simp only [exec, execJalr, execBltzal, execBgezal]
    split
    · simp
    · exact reads (next_ne_fault _ _)
  | mult rs rt | multu rs rt | div rs rt | divu rs rt | mthi rs | mtlo rs =>
    exact checkHiLo_ne_unwrittenRead (reads (next_ne_fault _ _))
  | mfhi rd => exact afterRead_ne_unwrittenRead (by simp [canReadHi, hd]) (next_ne_fault _ _)
  | mflo rd => exact afterRead_ne_unwrittenRead (by simp [canReadLo, hd]) (next_ne_fault _ _)
  | lb rt base offset | lbu rt base offset | lh rt base offset | lhu rt base offset | lw rt base offset =>
    exact reads (loadVia_ne_unwrittenRead rfl)
  | lwl rt base offset | lwr rt base offset => exact reads (loadVia_ne_unwrittenRead (canMerge_of_draw hd rt))
  | sb rt base offset | sh rt base offset | sw rt base offset =>
    exact reads (storeVia_ne_unwrittenRead hd fun _ => memWrite_error)
  | swl rt base offset | swr rt base offset => exact reads (storeVia_ne_unwrittenRead hd fun _ => storeBytes_error)
  | mfc0 rt rd =>
    refine ifUsable_ne_unwrittenRead ?_
    split <;> simp
  | mtc0 rt rd =>
    refine ifUsable_ne_unwrittenRead (reads ?_)
    split <;> simp
  | rfe => exact ifUsable_ne_unwrittenRead (next_ne_fault _ _)
  | cop1 c | cop2 c | cop3 c | lwc0 rt base offset | lwc1 rt base offset | lwc2 rt base offset
  | lwc3 rt base offset | swc0 rt base offset | swc1 rt base offset | swc2 rt base offset | swc3 rt base offset =>
    exact ifUsable_ne_unwrittenRead (refused_ne_fault _ _)
  | syscall c | brk c => exact enterException_ne_unwrittenRead _ _
  | _ => exact reads (next_ne_fault _ _)

/-! Under the policy `fault`. -/

/-- A register nothing has written cannot be read. -/
theorem canRead_of_unwritten {s : State} {r : Reg} (hp : s.cfg.unwritten = .fault)
    (h : r ≠ 0 ∧ s.gpr.written.get r.toFin = false) : canRead s r = false := by
  have h0 : r ≠ 0#5 := h.1
  simp [canRead, hp, h.2, h0]

theorem canReadHi_of_unwritten {s : State} (hp : s.cfg.unwritten = .fault) (h : s.hiWritten = false) :
    canReadHi s = false := by
  simp [canReadHi, hp, h]

theorem canReadLo_of_unwritten {s : State} (hp : s.cfg.unwritten = .fault) (h : s.loWritten = false) :
    canReadLo s = false := by
  simp [canReadLo, hp, h]

/-- A list of sources with a register that cannot be read cannot be read. -/
theorem canReadAll_of_mem {s : State} {r : Reg} {rs : List Reg} (h : canRead s r = false) (hr : r ∈ rs) :
    canReadAll s rs = false :=
  List.all_eq_false.mpr ⟨r, hr, by simp [h]⟩

/-- Reads of which one finds no value. -/
theorem afterRead_of_mem {s : State} {r : Reg} {rs : List Reg} (h : canRead s r = false) (hr : r ∈ rs) (run : Result) :
    afterRead (canReadAll s rs) run = .fault .unwrittenRead := by
  rw [canReadAll_of_mem h hr, afterRead_false]

/-- A read that comes after others answers no other fault when they fail. -/
theorem afterRead_of_unwrittenRead (ok : Bool) {run : Result} (h : run = .fault .unwrittenRead) :
    afterRead ok run = .fault .unwrittenRead := by
  cases ok
  · rfl
  · exact h

/-- The general registers an instruction reads before it checks anything. -/
def firstReads (i : Instr) : List Reg :=
  match i with
  | .add _ rs rt | .addu _ rs rt | .sub _ rs rt | .subu _ rs rt | .and _ rs rt | .or _ rs rt | .xor _ rs rt
  | .nor _ rs rt | .slt _ rs rt | .sltu _ rs rt | .sllv _ rt rs | .srlv _ rt rs | .srav _ rt rs | .beq rs rt _
  | .bne rs rt _ => [rs, rt]
  | .sll _ rt _ | .srl _ rt _ | .sra _ rt _ => [rt]
  | .addi _ rs _ | .addiu _ rs _ | .slti _ rs _ | .sltiu _ rs _ | .andi _ rs _ | .ori _ rs _ | .xori _ rs _ | .jr rs
  | .blez rs _ | .bgtz rs _ | .bltz rs _ | .bgez rs _ | .lb _ rs _ | .lbu _ rs _ | .lh _ rs _ | .lhu _ rs _ | .lw _ rs _
  | .lwl _ rs _ | .lwr _ rs _ | .sb _ rs _ | .sh _ rs _ | .sw _ rs _ | .swl _ rs _ | .swr _ rs _ => [rs]
  | _ => []

/-- An instruction that begins by reading a register it cannot read ends there. -/
theorem exec_of_firstReads {s : State} {r : Reg} {i : Instr} (h : canRead s r = false) (hr : r ∈ firstReads i) :
    exec i s = .fault .unwrittenRead := by
  cases i with
  | jalr | syscall | brk | mfhi | mthi | mflo | mtlo | mult | multu | div | divu | bltzal | bgezal | j | jal | lui
  | mfc0 | mtc0 | rfe | cop1 | cop2 | cop3 | lwc0 | lwc1 | lwc2 | lwc3 | swc0 | swc1 | swc2 | swc3 => simp [firstReads] at hr
  | _ => exact afterRead_of_mem h hr _

/-- With no hazard the reads of a writer of hi or lo come first. -/
theorem checkHiLo_afterRead_of_mem {s : State} {r : Reg} {rs : List Reg} (hz : s.hiloAge = 0 ∨ s.cfg.hiloHazard = .ignore)
    (h : canRead s r = false) (hr : r ∈ rs) (run : Result) :
    checkHiLo s (afterRead (canReadAll s rs) run) = .fault .unwrittenRead := by
  rw [checkHiLo_of_no_hazard hz, afterRead_of_mem h hr]

/-- COP0 is usable in kernel mode or with CU0 (45_cop_system R310). -/
theorem copUsable_zero {s : State} (h : s.sr.getLsbD 1 = false ∨ s.sr.getLsbD 28 = true) : copUsable 0 s = true := by
  rcases h with h | h
  · have hk : srKUc s = false := h
    simp [copUsable, hk]
  · have hc : srCU s 0 = true := h
    rw [copUsable, hc, Bool.or_true]

/-- An address that passes CheckAddr (44_load_store R281). -/
theorem addrFault_eq_false {s : State} {ea : Word} {w : Width} (hm : ea.toNat % widthBytes w = 0)
    (hu : srKUc s = true → ea.getLsbD 31 = false) : addrFault ea w s = false := by
  have hmode : (srKUc s && ea.getLsbD 31) = false := by
    cases hk : srKUc s with
    | false => rfl
    | true => rw [hu hk, Bool.and_false]
  rw [addrFault, hmode, Bool.or_false]
  simp [misaligned, hm]

/-- Past its address checks and not isolated, a store reads the register it stores. -/
theorem storeVia_of_unreadable {chk : Width} {ea : Word} {rt : Reg} {put : State → Except Fault State} {s : State}
    (ha : addrFault ea chk s = false) (hi : srIsC s = false) (h : canRead s rt = false) :
    storeVia chk ea rt put s = .fault .unwrittenRead := by
  simp only [storeVia, ha, hi, Bool.false_eq_true, if_false]
  exact afterRead_of_mem h (by simp) _

/-- Past its bus read, a load reads the register it merges into. -/
theorem loadVia_of_unmergeable {chk w : Width} {ea a : Word} {rt : Reg} {f : Word → Word} {s s' : State} {v : Word}
    (ha : addrFault ea chk s = false) (hi : srIsC s = false) (hr : memRead a w s = .ok (v, s')) :
    loadVia chk w ea a rt false f s = .fault .unwrittenRead := by
  simp [loadVia, ha, hi, hr]

theorem canMerge_eq_false {s : State} {rt : Reg} (hn : names s.ld rt = false) (h : canRead s rt = false) :
    canMerge rt s = false := by
  simp [canMerge, hn, h]

/-- The merging loads fault at the register they merge into (44_load_store R292). -/
theorem mergingLoads_of_unreadable {s : State} {rt base : Reg} {offset : BitVec 16} (h : canRead s rt = false)
    (ha : addrFault (effAddr base offset s) .b8 s = false) (hi : srIsC s = false) (hn : names s.ld rt = false)
    (hr : ∃ v s', memRead (alignedWord (effAddr base offset s)) .b32 s = .ok (v, s')) :
    exec (.lwl rt base offset) s = .fault .unwrittenRead ∧ exec (.lwr rt base offset) s = .fault .unwrittenRead := by
  obtain ⟨v, s', hr⟩ := hr
  have hm := canMerge_eq_false hn h
  simp only [exec, execLwl, execLwr, hm]
  exact ⟨afterRead_of_unwrittenRead _ (loadVia_of_unmergeable ha hi hr),
    afterRead_of_unwrittenRead _ (loadVia_of_unmergeable ha hi hr)⟩

/-- Settles O11: under `draw` every read finds a value; under `fault` an instruction is its reads first (`exec_of_firstReads`), or
the checks that come before them and then its reads. -/
theorem unwrittenReads : Obligations.UnwrittenReads := by
  intro s rd rs rt sh imm
  refine ⟨exec_ne_unwrittenRead_of_draw, fun hp => ?_⟩
  intro unset ea noHazard
  have unreadable : ∀ {r}, unset r → canRead s r = false := canRead_of_unwritten hp
  refine ⟨fun hrs i hi => exec_of_firstReads (unreadable hrs) ?_, fun hrt i hi => exec_of_firstReads (unreadable hrt) ?_,
    fun h hz => ?_, fun hrs hz => ?_, fun hhi => ?_, fun hlo => ?_, fun hrs hne => ?_, fun hrs hne => ?_, fun hrt hu => ?_,
    fun hrt hi hu => ⟨?_, fun hn hr => ?_⟩⟩
  · revert i
    simp [firstReads]
  · revert i
    simp [firstReads]
  · obtain ⟨r, hr, hmem⟩ : ∃ r, canRead s r = false ∧ r ∈ [rs, rt] := by
      rcases h with h | h
      · exact ⟨rs, unreadable h, by simp⟩
      · exact ⟨rt, unreadable h, by simp⟩
    simp only [List.forall_mem_cons]
    exact ⟨checkHiLo_afterRead_of_mem hz hr hmem _, checkHiLo_afterRead_of_mem hz hr hmem _,
      checkHiLo_afterRead_of_mem hz hr hmem _, checkHiLo_afterRead_of_mem hz hr hmem _, List.forall_mem_nil _⟩
  · have hmem : rs ∈ [rs] := by simp
    exact ⟨checkHiLo_afterRead_of_mem hz (unreadable hrs) hmem _, checkHiLo_afterRead_of_mem hz (unreadable hrs) hmem _⟩
  · simp [exec, execMfhi, canReadHi_of_unwritten hp hhi]
  · simp [exec, execMflo, canReadLo_of_unwritten hp hlo]
  · simp only [exec, execJalr, hne, false_and, if_false]
    exact afterRead_of_mem (unreadable hrs) (by simp) _
  · have hlink : rs ≠ linkReg := hne
    simp only [exec, execBltzal, execBgezal, hlink, if_false]
    exact ⟨afterRead_of_mem (unreadable hrs) (by simp) _, afterRead_of_mem (unreadable hrs) (by simp) _⟩
  · simp only [exec, execMtc0, ifUsable, copUsable_zero hu, if_true]
    exact afterRead_of_mem (unreadable hrt) (by simp) _
  · have stores : ∀ {chk : Width} {ok : Bool} {put : State → Except Fault State}, ea.toNat % widthBytes chk = 0 →
        afterRead ok (storeVia chk ea rt put s) = .fault .unwrittenRead := fun hm =>
      afterRead_of_unwrittenRead _ (storeVia_of_unreadable (addrFault_eq_false hm hu) hi (unreadable hrt))
    simp only [List.forall_mem_cons]
    exact ⟨stores (chk := .b8), stores (chk := .b16), stores (chk := .b32), stores (chk := .b8), stores (chk := .b8),
      List.forall_mem_nil _⟩
  · have ha : addrFault ea .b8 s = false := addrFault_eq_false (Nat.mod_one _) hu
    exact mergingLoads_of_unreadable (unreadable hrt) ha hi hn hr

end Sys2Proof.Machine
end

section
/-! SUPPORT. The sticky marks of 10_state R60: what holds a step back, and what leaves them recorded. -/

namespace Sys2Proof.Machine

theorem step_of_configOk_eq_false {s : State} (h : configOk s = false) : step s = .fault .configFault := by
  simp [step, guarded, h]

/-- A recorded fault or refusal ends the catch-up: no DMA step is enabled (65_dma R418). -/
theorem catchingUp_of_stopped {s : State} (h : s.faults ≠ [] ∨ s.refused = true) : catchingUp s = false := by
  rcases h with h | h <;> simp [catchingUp, dmaEnabled, h]

/-- A stopped state takes the next turn, if any. -/
theorem step_of_stopped {s : State} (hc : configOk s = true) (h : s.faults ≠ [] ∨ s.refused = true) :
    step s = takeTurn (nextTurn s) (startTurn s) := by
  simp [step, guarded, transition, hc, catchingUp_of_stopped h]

/-- A CPU or DMA turn is held back by the recorded marks. -/
theorem takeTurn_agent {turn : Turn} (h : turn ∈ [.cpu, .dma]) (s : State) :
    ∃ run, takeTurn turn s = ifEnabled s run := by
  rcases List.mem_pair.mp h with rfl | rfl <;> exact ⟨_, rfl⟩

theorem ifEnabled_of_faults {s : State} {f : Fault} {rest : List Fault} (h : s.faults = f :: rest) (run : Result) :
    ifEnabled s run = .fault f := by
  simp [ifEnabled, h]

theorem ifEnabled_of_refused {s : State} (hf : s.faults = []) (hr : s.refused = true) (run : Result) :
    ifEnabled s run = .refused .markedRefused := by
  simp [ifEnabled, hf, hr]

/-- Both sticky marks are as they were. -/
abbrev SameMarks (s t : State) : Prop := t.faults = s.faults ∧ t.refused = s.refused

theorem pokeReg_marks (r : HostReg) (v : Word) (s : State) : SameMarks s (pokeReg r v s) := by
  cases r with
  | cop0 q => simp only [pokeReg, pokeCop0]; split <;> exact ⟨rfl, rfl⟩
  | _ => exact ⟨rfl, rfl⟩

theorem pokeDmaReg_marks (r : DmaReg) (v : Word) (s : State) : SameMarks s (pokeDmaReg r v s) := by
  cases r <;> exact ⟨rfl, rfl⟩

theorem introspectWrite_marks (a : Word) (w : Width) (v : Word) (s : State) : SameMarks s (introspectWrite a w v s) := by
  unfold introspectWrite
  cases introspectAt s.cfg a w with
  | none => exact ⟨rfl, rfl⟩
  | some place =>
    obtain ⟨handler, off⟩ := place
    cases handler with
    | ram | spad | bios | external win => exact ⟨rfl, rfl⟩
    | cacheCtl => dsimp only; split <;> exact ⟨rfl, rfl⟩
    | irq =>
      dsimp only
      split
      · split <;> exact ⟨rfl, rfl⟩
      · exact ⟨rfl, rfl⟩
    | dma =>
      dsimp only
      split
      · exact ⟨rfl, rfl⟩
      · split
        · exact pokeDmaReg_marks _ _ _
        · exact ⟨rfl, rfl⟩

/-- A turn that a stopped state takes, other than a reset() or a restore, leaves the marks. -/
theorem takeTurn_marks {turn : Turn} {s t : State} (hs : s.faults ≠ [] ∨ s.refused = true) (hr : turn ≠ .hostReset)
    (hv : ∀ snap, turn ≠ .restore snap) (h : takeTurn turn s = .next t) : SameMarks s t := by
  cases turn with
  | cpu | dma =>
    obtain ⟨hf, hn, -⟩ := ifEnabled_next h
    simp [hf, hn] at hs
  | raise l | setReady n b => exact Host.Outcome.next.inj h ▸ ⟨rfl, rfl⟩
  | poke a w v => exact Host.Outcome.next.inj h ▸ introspectWrite_marks a w v s
  | pokeReg r v => exact Host.Outcome.next.inj h ▸ pokeReg_marks r v s
  | hostReset => exact absurd rfl hr
  | restore snap => exact absurd rfl (hv snap)

/-- What a stopped state becomes without a reset() or a restore keeps every mark. -/
theorem advance_keeps_marks {s : State} (hs : s.faults ≠ [] ∨ s.refused = true) (hr : nextTurn s ≠ .hostReset)
    (hv : ∀ snap, nextTurn s ≠ .restore snap) :
    (∀ f ∈ s.faults, f ∈ (advance s).faults) ∧ (s.refused = true → (advance s).refused = true) := by
  rcases advance_cases s with ⟨t, hstep, ht⟩ | ⟨g, -, ht⟩ | ⟨r, -, ht⟩ <;> rw [ht]
  · have htake := (step_of_stopped (step_cases hstep).1 hs).symm.trans hstep
    obtain ⟨hf, hm⟩ : SameMarks (startTurn s) t := takeTurn_marks hs hr hv htake
    exact ⟨fun f h => hf ▸ h, fun h => hm.trans h⟩
  · exact ⟨fun f h => mem_recordFault (.inl h), fun h => (recordFault_refused _ _).trans h⟩
  · exact ⟨fun f h => h, fun _ => rfl⟩

theorem advance_of_next {s t : State} (h : step s = .next t) : advance s = t := by
  have h : guarded s = .next t := h
  simp [advance, h]

theorem advance_of_fault {s : State} {f : Fault} (h : step s = .fault f) : advance s = recordFault f (startTurn s) := by
  have h : guarded s = .fault f := h
  simp [advance, h]

theorem advance_of_refused {s : State} {r : Refusal} (h : step s = .refused r) : advance s = recordRefusal (startTurn s) := by
  have h : guarded s = .refused r := h
  simp [advance, h]

/-- Recording a fault changes the list of faults alone (00_scope R13). -/
theorem recordFault_eq (f : Fault) (s : State) :
    recordFault f s = { s with faults := if f ∈ s.faults then s.faults else s.faults ++ [f] } := by
  unfold recordFault
  split <;> rfl

/-- Settles O60: a stop is what `step_of_stopped` and `advance_cases` say, and the turns a stopped state still takes leave the marks
(`takeTurn_marks`). -/
theorem stoppedStatesStayStopped : Obligations.StoppedStatesStayStopped := by
  intro s saved restored
  refine ⟨step_of_configOk_eq_false, fun hc hturn => ⟨fun f rest hf => ?_, fun hf hr => ?_⟩, fun h => ?_, fun h => ?_,
    fun t => advance_of_next, fun f h => ?_, fun r h => advance_of_refused h, fun hr hv => ?_, fun rest ha hc hs => ?_⟩
  · obtain ⟨run, hrun⟩ := takeTurn_agent hturn (startTurn s)
    rw [step_of_stopped hc (.inl (by simp [hf])), hrun]
    exact ifEnabled_of_faults hf run
  · obtain ⟨run, hrun⟩ := takeTurn_agent hturn (startTurn s)
    rw [step_of_stopped hc (.inr hr), hrun]
    exact ifEnabled_of_refused hf hr run
  · exact if_pos h
  · exact if_neg (by rw [h]; simp)
  · rw [advance_of_fault h, recordFault_eq]
    rfl
  · exact ⟨fun f hf => (advance_keeps_marks (.inl (List.ne_nil_of_mem hf)) hr hv).1 f hf,
      fun hm => (advance_keeps_marks (.inr hm) hr hv).2 hm⟩
  · apply advance_of_next
    rw [step_of_stopped hc hs]
    simp [nextTurn, ha, startTurn, takeTurn]

end Sys2Proof.Machine
end

section
/-! SUPPORT. The handler a virtual address reaches and the offset in it: what a bus access and an introspection at that address do, said
once for every core handler. -/

namespace Sys2Proof.Machine

/-- The handler a virtual address reaches and the offset in its range (20_memory R95, R96). -/
def handlerAt (cfg : Params) (x : Word) : Option (Handler × Nat) :=
  (lookup cfg (physAddr x).toNat (segmentOf x)).map fun e => (e.handler, (physAddr x).toNat - e.base)

theorem handlerAt_eq_some {cfg : Params} {x : Word} {h : Handler} {off : Nat} :
    handlerAt cfg x = some (h, off) ↔
      ∃ e, lookup cfg (physAddr x).toNat (segmentOf x) = some e ∧ e.handler = h ∧ (physAddr x).toNat - e.base = off := by
  simp [handlerAt]

theorem handlerAt_of_lookup {cfg : Params} {x : Word} {e : BusEntry} {off : Nat}
    (he : lookup cfg (physAddr x).toNat (segmentOf x) = some e) (hp : (physAddr x).toNat = e.base + off) :
    handlerAt cfg x = some (e.handler, off) :=
  handlerAt_eq_some.2 ⟨e, he, rfl, by omega⟩

/-- An address that reaches a handler that is memory reaches the cell of the offset. -/
theorem memoryAt_of_handlerAt {cfg : Params} {x : Word} {h : Handler} {off a : Nat} (hx : handlerAt cfg x = some (h, off))
    (ha : cellOf h off = some a) : memoryAt cfg x = some (h, a) := by
  obtain ⟨e, he, rfl, rfl⟩ := handlerAt_eq_some.1 hx
  simp [memoryAt, he, ha]

/-- An address that reaches memory reaches a handler that is memory. -/
theorem handlerAt_of_memoryAt {cfg : Params} {x : Word} {h : Handler} {a : Nat} (hx : memoryAt cfg x = some (h, a)) :
    ∃ off, handlerAt cfg x = some (h, off) ∧ cellOf h off = some a := by
  obtain ⟨e, he, hh, hc⟩ := memoryAt_entry hx
  exact ⟨_, handlerAt_eq_some.2 ⟨e, he, hh, rfl⟩, hc⟩

/-- Introspection finds the handler of an aligned address. -/
theorem introspectAt_eq (cfg : Params) (x : Word) (w : Width) :
    introspectAt cfg x w = if misaligned x w then none else handlerAt cfg x := by
  unfold introspectAt handlerAt
  cases lookup cfg (physAddr x).toNat (segmentOf x) <;> rfl

theorem misaligned_eq_false {x : Word} {w : Width} : misaligned x w = false ↔ x.toNat % widthBytes w = 0 := by
  simp [misaligned]

/-- What the bus makes of a core handler's reply to a read (20_memory R92, R96, R104). -/
def ReadReply.access (reply : ReadReply) (h : Handler) (paddr : Word) (w : Width) (s : State) : Access Word :=
  match reply with
  | .value v => .ok (v, noteCall h s)
  | .hole => unmappedRead paddr w s
  | .badWidth => .error .mmioWidth

/-- What the bus makes of a core handler's reply to a write (20_memory R92, R97, R104). -/
def WriteReply.access (reply : WriteReply) (h : Handler) (paddr : Word) (w : Width) (s : State) : Except Fault State :=
  match reply with
  | .done t => .ok (noteCall h t)
  | .hole => unmappedWrite paddr w s
  | .badWidth => .error .mmioWidth

theorem memRead_core {s : State} {x : Word} {h : Handler} {off : Nat} (hx : handlerAt s.cfg x = some (h, off))
    (hc : ∀ win, h ≠ .external win) (w : Width) : memRead x w s = (coreRead h off w s).access h (physAddr x) w s := by
  obtain ⟨e, he, rfl, rfl⟩ := handlerAt_eq_some.1 hx
  simp only [memRead, he, entryRead]
  cases hh : e.handler with
  | external win => exact absurd hh (hc win)
  | _ => rfl

theorem memWrite_core {s : State} {x : Word} {h : Handler} {off : Nat} (hx : handlerAt s.cfg x = some (h, off))
    (hc : ∀ win, h ≠ .external win) (w : Width) (v : Word) :
    memWrite x w v s = (coreWrite h off w v s).access h (physAddr x) w s := by
  obtain ⟨e, he, rfl, rfl⟩ := handlerAt_eq_some.1 hx
  simp only [memWrite, he, entryWrite]
  cases hh : e.handler with
  | external win => exact absurd hh (hc win)
  | _ => rfl

end Sys2Proof.Machine
end

section
/-! SUPPORT. The invariant taken apart: what it asks of memory, of each channel, of the agenda and of the parameters, and which writes
of each of them keep it. -/

namespace Sys2Proof.Machine

/-- What the invariant asks of memory: canonical form (10_state R58) and only cells of the map (20_memory R89). -/
structure MemoryInv (m : List Host.Cell) : Prop where
  wf    : Memory.wf m
  inMap : ∀ c ∈ m, cellInMap c.1 = true

/-- What the invariant asks of channel n: the fixed bits of CHCR (20_memory R93) and START = 1 exactly when it is active (65_dma
R434). -/
structure ChannelInv (n : Chan) (c : Channel) : Prop where
  fixed : chcrValue n c.chcr = c.chcr
  start : c.active = chcrStart c.chcr

theorem configOk_iff (s : State) : configOk s = true ↔ busMapOk s.cfg = true ∧ ∀ n, channelOk s n = true := by
  simp [configOk, Fin.forall_fin_succ]

theorem inv_iff {s : State} : Inv s ↔ MemoryInv s.mem ∧ (∀ n, ChannelInv n (s.chan n)) ∧ busMapOk s.cfg = true ∧
    ∀ snap, .restore snap ∈ s.agenda → snap.Inv := by
  constructor
  · intro h
    obtain ⟨hmap, hchan⟩ := (configOk_iff s).1 h.config
    refine ⟨⟨h.now.wf, h.now.inMap⟩, fun n => ⟨?_, h.now.start n⟩, hmap, h.saved⟩
    have hn := hchan n
    simp only [channelOk, Bool.and_eq_true, beq_iff_eq] at hn
    exact hn.1
  · rintro ⟨hmem, hchan, hmap, hsaved⟩
    refine ⟨⟨hmem.wf, hmem.inMap, fun n => (hchan n).start⟩, hsaved, (configOk_iff s).2 ⟨hmap, fun n => ?_⟩⟩
    simp [channelOk, (hchan n).fixed, (hchan n).start]

theorem Inv.memory {s : State} (h : Inv s) : MemoryInv s.mem := (inv_iff.1 h).1

theorem Inv.channel {s : State} (h : Inv s) (n : Chan) : ChannelInv n (s.chan n) := (inv_iff.1 h).2.1 n

/-- The invariant speaks of memory, the channels, the parameters and the agenda only, and it still holds when turns are taken from the
agenda. -/
theorem Inv.of_fewer_turns {s t : State} (h : Inv s) (hm : t.mem = s.mem) (hd : t.dma = s.dma) (hc : t.cfg = s.cfg)
    (ha : t.agenda ⊆ s.agenda) : Inv t := by
  obtain ⟨hmem, hchan, hmap, hsaved⟩ := inv_iff.1 h
  refine inv_iff.2 ⟨hm ▸ hmem, fun n => ?_, hc ▸ hmap, fun snap hs => hsaved snap (ha hs)⟩
  rw [State.chan, hd]
  exact hchan n

theorem Inv.of_same {s t : State} (h : Inv s) (hm : t.mem = s.mem) (hd : t.dma = s.dma) (hc : t.cfg = s.cfg)
    (ha : t.agenda = s.agenda) : Inv t := h.of_fewer_turns hm hd hc (ha ▸ List.Subset.refl _)

theorem Inv.setMem {s : State} (h : Inv s) {m : List Host.Cell} (hm : MemoryInv m) : Inv { s with mem := m } :=
  inv_iff.2 ⟨hm, h.channel, (inv_iff.1 h).2.2⟩

theorem Inv.setChan {s : State} (h : Inv s) {n : Chan} {c : Channel} (hc : ChannelInv n c) : Inv (setChan n c s) := by
  refine inv_iff.2 ⟨h.memory, fun m => ?_, (inv_iff.1 h).2.2⟩
  rw [chan_setChan]
  split
  · next hnm => exact hnm ▸ hc
  · exact h.channel m

/-- A write of cells of the map keeps memory in form. -/
theorem MemoryInv.writeMem {m : List Host.Cell} (h : MemoryInv m) {a : Nat} {w : Width} {v : Word}
    (ha : ∀ k < widthBytes w, cellInMap (a + k) = true) : MemoryInv (writeMem m a w v) where
  wf := writeMem_wf a w v h.wf
  inMap c hc := by
    rcases mem_writeMem hc with ⟨h1, h2⟩ | hc
    · obtain ⟨k, hk⟩ := Nat.exists_eq_add_of_le h1
      exact hk ▸ ha k (by omega)
    · exact h.inMap c hc

theorem cellInMap_iff (a : Nat) : cellInMap a = true ↔
    a < 0x00200000 ∨ (0x1F800000 ≤ a ∧ a < 0x1F800400) ∨ (0x1FC00000 ≤ a ∧ a < 0x1FC80000) := by
  simp [cellInMap, or_assoc]

/-- The bytes of an aligned access to memory are cells of the map. -/
theorem cellInMap_of_memoryAt {cfg : Params} {x : Word} {w : Width} {h : Handler} {a k : Nat}
    (hm : memoryAt cfg x = some (h, a)) (hx : misaligned x w = false) (hk : k < widthBytes w) : cellInMap (a + k) = true := by
  have hp := physAddr_mod_four x
  have hin : (physAddr x).toNat % 4 + k < 4 := by
    have hx := misaligned_eq_false.1 hx
    cases w <;> simp only [widthBytes] at hx hk <;> omega
  rw [cellInMap_iff]
  rcases memoryAt_range hm with ⟨-, h1, h2, -⟩ | ⟨-, h1, h2, h3, -⟩ | ⟨-, h1, h2, h3, -⟩ <;> omega

/-! CHCR under the masks of 10_state R52, R53. -/

theorem chcrValue_idem (n : Chan) (v : Word) : chcrValue n (chcrValue n v) = chcrValue n v := by
  have bits : ∀ v m f : Bool, ((v && m || f) && m || f) = (v && m || f) := by decide
  ext i
  simp only [chcrValue, BitVec.getElem_or, BitVec.getElem_and]
  exact bits _ _ _

/-- Clearing bits that are not fixed at 1 leaves the fixed bits as they must be. -/
theorem chcrValue_clear {n : Chan} {c b : Word} (h : chcrValue n c = c) (hb : b &&& Layout.chcrFixed n = 0) :
    chcrValue n (c &&& ~~~b) = c &&& ~~~b := by
  have bits : ∀ c b m f : Bool, (c && m || f) = c → (b && f) = false → (c && !b && m || f) = (c && !b) := by decide
  ext i hi
  have h := congrArg (fun x : Word => x[i]) h
  have hb := congrArg (fun x : Word => x[i]) hb
  simp only [chcrValue, BitVec.getElem_or, BitVec.getElem_and, BitVec.getElem_not, BitVec.ofNat_eq_ofNat,
    BitVec.getElem_zero] at h hb ⊢
  exact bits _ _ _ _ h hb

theorem startBit_and_chcrFixed (n : Chan) : startBit &&& Layout.chcrFixed n = 0 := by
  unfold Layout.chcrFixed
  split <;> rfl

theorem triggerBit_and_chcrFixed (n : Chan) : triggerBit &&& Layout.chcrFixed n = 0 := by
  unfold Layout.chcrFixed
  split <;> rfl

end Sys2Proof.Machine
end

section
/-! SUPPORT. The named operations on a channel and the DMA units keep the invariant. -/

namespace Sys2Proof.Machine

/-- Only CHCR and the active flag count. -/
theorem ChannelInv.of_same {n : Chan} {c d : Channel} (h : ChannelInv n c) (hc : d.chcr = c.chcr) (ha : d.active = c.active) :
    ChannelInv n d where
  fixed := by rw [hc]; exact h.fixed
  start := by rw [hc, ha]; exact h.start

/-- A channel that is stopped with its START bit clear. -/
theorem channelInv_of_stopped {n : Chan} {c : Channel} (hf : chcrValue n c.chcr = c.chcr) (ha : c.active = false)
    (hs : chcrStart c.chcr = false) : ChannelInv n c := ⟨hf, ha.trans hs.symm⟩

/-- A transfer fault stops the channel, whatever the active flag was (65_dma R430). -/
theorem channelInv_failed {n : Chan} {c : Channel} (hf : chcrValue n c.chcr = c.chcr) (r : DmaFault) :
    ChannelInv n (c.failed r) := by
  refine channelInv_of_stopped (chcrValue_clear hf ?_) rfl (by simp [Channel.failed, chcrStart, startBit])
  rw [BitVec.and_comm, BitVec.and_or_distrib_left]
  rw [BitVec.and_comm, startBit_and_chcrFixed, BitVec.and_comm, triggerBit_and_chcrFixed]
  rfl

theorem ChannelInv.finished {n : Chan} {c : Channel} (h : ChannelInv n c) : ChannelInv n c.finished :=
  channelInv_of_stopped (chcrValue_clear h.fixed (startBit_and_chcrFixed n)) rfl (by simp [Channel.finished, chcrStart, startBit])

theorem ChannelInv.clearTrigger {n : Chan} {c : Channel} (h : ChannelInv n c) :
    ChannelInv n { c with chcr := c.chcr &&& ~~~triggerBit } where
  fixed := chcrValue_clear h.fixed (triggerBit_and_chcrFixed n)
  start := h.start.trans (by simp [chcrStart, triggerBit])

theorem ChannelInv.wordMoved {n : Chan} {c : Channel} (h : ChannelInv n c) : ChannelInv n c.wordMoved := by
  unfold Channel.wordMoved
  split
  · exact h.of_same rfl rfl
  · exact h.of_same rfl rfl

theorem channelInv_reset (n : Chan) : ChannelInv n (Channel.reset n) :=
  channelInv_of_stopped (by revert n; decide) rfl (by revert n; decide)

theorem Inv.transferFault {s : State} (h : Inv s) (n : Chan) (r : DmaFault) : Inv (transferFault n r s) :=
  h.setChan (channelInv_failed (h.channel n).fixed r)

theorem Inv.clearTrigger {s : State} (h : Inv s) (n : Chan) : Inv (clearTrigger n s) := h.setChan (h.channel n).clearTrigger

theorem Inv.setMadr {s : State} (h : Inv s) (n : Chan) (a : BitVec 24) : Inv (setMadr n a s) :=
  h.setChan ((h.channel n).of_same rfl rfl)

theorem Inv.complete {s : State} (h : Inv s) (n : Chan) : Inv (complete n s) := by
  have hs := h.setChan (h.channel n).finished
  unfold Machine.complete
  dsimp only
  split
  · exact hs.of_same rfl rfl rfl rfl
  · exact hs.of_same rfl rfl rfl rfl

/-! Moving words. -/

theorem dmaAddrOk_iff {a : Int} : dmaAddrOk a = true ↔ a % 4 = 0 ∧ 0 ≤ a ∧ a < 0x00200000 := by
  simp only [dmaAddrOk, Bool.and_eq_true, beq_iff_eq, decide_eq_true_eq, and_assoc]
  rfl

/-- The words a block passes are those `blockOk` checks. -/
theorem blockOk_iff {a0 step : Int} {count : Nat} :
    blockOk a0 step count = true ↔ ∀ j < count, dmaAddrOk (a0 + step * j) = true := by
  induction count with
  | zero => simp [blockOk]
  | succ k ih => rw [blockOk, Bool.and_eq_true, ih, Nat.forall_lt_succ_right, and_comm]

theorem Inv.dmaTick {s : State} (h : Inv s) : Inv (dmaTick s) := h.of_same rfl rfl rfl rfl

theorem Inv.dmaRamWrite {s : State} (h : Inv s) {a : Int} (ha : dmaAddrOk a = true) (v : Word) :
    Inv (dmaRamWrite a.toNat v s) := by
  obtain ⟨hmod, h0, h1⟩ := dmaAddrOk_iff.1 ha
  refine Inv.dmaTick (h.setMem (h.memory.writeMem fun k hk => ?_))
  simp only [widthBytes] at hk
  exact (cellInMap_iff _).2 (.inl (by omega))

theorem Inv.moveWord {s : State} (h : Inv s) {a : Int} (n : Chan) (fromRam : Bool) (ha : fromRam = true ∨ dmaAddrOk a = true) :
    Inv (moveWord n fromRam a.toNat s) := by
  cases fromRam with
  | true => exact h.of_same rfl rfl rfl rfl
  | false =>
    have hd : Inv (noteDraw s) := h.of_same rfl rfl rfl rfl
    exact hd.dmaRamWrite (ha.resolve_left (by simp)) _

theorem Inv.moveBlock {n : Chan} {fromRam : Bool} {a0 step : Int} {count i : Nat} {s : State} (h : Inv s)
    (ha : fromRam = true ∨ ∀ j, i ≤ j → j < i + count → dmaAddrOk (a0 + step * j) = true) :
    Inv (moveBlock n fromRam a0 step count i s) := by
  induction count generalizing i s with
  | zero => exact h
  | succ k ih =>
    exact ih (h.moveWord n fromRam (ha.imp id fun ha => ha i (Nat.le_refl i) (by omega)))
      (ha.imp id fun ha j h1 h2 => ha j (by omega) (by omega))

theorem Inv.otcBlock {a0 : Int} {count i : Nat} {s : State} (h : Inv s)
    (ha : ∀ j, i ≤ j → j < i + count → dmaAddrOk (a0 - 4 * j) = true) : Inv (otcBlock a0 count i s) := by
  induction count generalizing i s with
  | zero => exact h
  | succ k ih => exact ih (h.dmaRamWrite (ha i (Nat.le_refl i) (by omega)) _) fun j h1 h2 => ha j (by omega) (by omega)

/-! The units (65_dma R420 to R436). -/

theorem Inv.manualUnit {s : State} (h : Inv s) (n : Chan) : Inv (manualUnit n s) := by
  unfold Machine.manualUnit
  dsimp only
  split
  · next hb => exact ((h.clearTrigger n).moveBlock (.inr fun j _ hj => blockOk_iff.1 hb j (by omega))).complete n
  · exact (h.clearTrigger n).transferFault n _

theorem Inv.otcUnit {s : State} (h : Inv s) : Inv (otcUnit s) := by
  unfold Machine.otcUnit
  dsimp only
  split
  · next hb =>
    refine ((h.clearTrigger 6).otcBlock fun j _ hj => ?_).complete 6
    have hj := blockOk_iff.1 hb j (by omega)
    rwa [Int.neg_mul, ← Int.sub_eq_add_neg] at hj
  · exact (h.clearTrigger 6).transferFault 6 _

theorem Inv.requestUnit {s : State} (h : Inv s) (n : Chan) : Inv (requestUnit n s) := by
  unfold Machine.requestUnit
  dsimp only
  split
  · exact h.transferFault n _
  · split
    · exact h.transferFault n _
    · next hok =>
      have ha : dmaAddrOk (s.chan n).madr.toNat = true := by simpa using hok
      have hs := (h.moveWord n (chcrDir (s.chan n).chcr) (.inr ha)).setChan (h.channel n).wordMoved
      split
      · exact hs.complete n
      · exact hs

theorem Inv.linkedUnit {s : State} (h : Inv s) (n : Chan) : Inv (linkedUnit n s) := by
  unfold Machine.linkedUnit
  dsimp only
  split
  · exact h.transferFault n _
  · split
    · exact h.transferFault n _
    · split
      · exact h.dmaTick.transferFault n _
      · have hs : Inv (Machine.moveBlock n true (s.chan n).madr.toNat 4
            (headerCount (readMem s.mem (s.chan n).madr.toNat .b32)) 1 (Machine.dmaTick s)) := h.dmaTick.moveBlock (.inl rfl)
        split
        · exact (hs.setMadr n _).complete n
        · split
          · exact hs.transferFault n _
          · exact hs.setMadr n _

theorem Inv.dmaStep {s : State} (h : Inv s) : Inv (dmaStep s) := by
  unfold Machine.dmaStep
  split
  · exact h
  · next n _ =>
    unfold dmaUnit
    split
    · split
      · exact h.otcUnit
      · exact h.manualUnit n
    · exact h.requestUnit n
    · exact h.linkedUnit n
    · exact h.transferFault n _

end Sys2Proof.Machine
end

section
/-! SUPPORT. Bus writes, CPU steps and the turns of the agenda keep the invariant and the parameters. -/

namespace Sys2Proof.Machine

/-! Device registers. -/

theorem Inv.writeChcr {s : State} (h : Inv s) (n : Chan) (v : Word) : Inv (writeChcr n v s) := by
  have hn := h.channel n
  have hv := chcrValue_idem n v
  unfold Machine.writeChcr
  dsimp only
  split
  · rw [Machine.transferFault, chan_setChan, if_pos rfl, setChan_setChan]
    exact h.setChan (channelInv_failed hv _)
  · split
    · next hstop =>
      simp only [Bool.and_eq_true, Bool.not_eq_true'] at hstop
      exact h.setChan (channelInv_of_stopped hv rfl hstop.2)
    · next hstop =>
      split
      · next hbegin =>
        simp only [Bool.and_eq_true] at hbegin
        exact h.setChan ⟨hv, hbegin.2.symm⟩
      · next hbegin =>
        have bits : ∀ active old new : Bool, active = old → ¬(active && !new) = true → ¬(!active && !old && new) = true →
            active = new := by decide
        exact h.setChan ⟨hv, bits _ _ _ hn.start hstop hbegin⟩

theorem Inv.writeDicr {s : State} (h : Inv s) (v : Word) : Inv (writeDicr v s) := by
  unfold Machine.writeDicr
  dsimp only
  split
  · exact h.of_same rfl rfl rfl rfl
  · exact h.of_same rfl rfl rfl rfl

theorem Inv.dmaRegStore {s : State} (h : Inv s) (r : DmaReg) (v : Word) : Inv (dmaRegStore r v s) := by
  cases r with
  | madr n | bcr n => exact h.setChan ((h.channel n).of_same rfl rfl)
  | chcr n => exact h.writeChcr n v
  | dpcr => exact h.of_same rfl rfl rfl rfl
  | dicr => exact h.writeDicr v

theorem Inv.irqStore {s : State} (h : Inv s) (off : Nat) (v : Word) : Inv (irqStore off v s) := by
  unfold Machine.irqStore
  split
  · exact h.of_same rfl rfl rfl rfl
  · exact h.of_same rfl rfl rfl rfl

/-- A write of a core handler keeps the invariant, if the cells it writes belong to the map. -/
theorem Inv.coreWrite {s t : State} (hs : Inv s) {h : Handler} {off : Nat} {w : Width} {v : Word}
    (hcell : ∀ a, cellOf h off = some a → ∀ k < widthBytes w, cellInMap (a + k) = true)
    (ht : coreWrite h off w v s = .done t) : Inv t := by
  cases h with
  | ram | spad => exact WriteReply.done.inj ht ▸ hs.setMem (hs.memory.writeMem (hcell _ rfl))
  | bios => exact WriteReply.done.inj ht ▸ hs
  | irq =>
    cases w with
    | b8 => simp [Machine.coreWrite, irqWrite] at ht
    | b16 =>
      rw [← WriteReply.done.inj ht]
      split
      · exact hs.irqStore _ _
      · exact hs
    | b32 => exact WriteReply.done.inj ht ▸ hs.irqStore _ _
  | dma =>
    simp only [Machine.coreWrite, dmaWrite] at ht
    split at ht
    · simp at ht
    · split at ht
      · exact WriteReply.done.inj ht ▸ hs.dmaRegStore _ _
      · simp at ht
  | cacheCtl =>
    simp only [Machine.coreWrite] at ht
    split at ht
    · exact WriteReply.done.inj ht ▸ hs.of_same rfl rfl rfl rfl
    · simp at ht
  | external win => simp [Machine.coreWrite] at ht

theorem Inv.memWrite {s t : State} (hs : Inv s) {x v : Word} {w : Width} (hx : misaligned x w = false)
    (ht : memWrite x w v s = .ok t) : Inv t := by
  rcases memWrite_ok ht with rfl | ⟨win, ev, rfl⟩ | ⟨e, u, he, hu, rfl⟩
  · exact hs
  · exact hs.of_same rfl rfl rfl rfl
  · have hat := handlerAt_eq_some.2 ⟨e, he, rfl, rfl⟩
    have hu : Inv u := hs.coreWrite (fun a ha k hk => cellInMap_of_memoryAt (memoryAt_of_handlerAt hat ha) hx hk) hu
    exact hu.of_same rfl rfl rfl rfl

theorem Inv.memRead {s t : State} (hs : Inv s) {x v : Word} {w : Width} (ht : memRead x w s = .ok (v, t)) : Inv t := by
  rw [memRead_devices ht]
  exact hs.of_same rfl rfl rfl rfl

/-! The CPU. -/

/-- MTC0 writes SR, the IP bits of CAUSE and the breakpoint stores, and nothing else (45_cop_system R314). -/
theorem cop0Write_frame {rd : Reg} {v : Word} {s t : State} (h : cop0Write rd v s = .ok t) :
    t = { s with bpc := t.bpc, bda := t.bda, dcic := t.dcic, bdam := t.bdam, bpcm := t.bpcm, sr := t.sr, cause := t.cause } := by
  unfold cop0Write at h
  repeat' split at h
  all_goals cases h <;> rfl

theorem kept_inv : Kept Inv where
  retire _ _ h := h.of_same rfl rfl rfl rfl
  exc _ _ h := h.of_same rfl rfl rfl rfl
  read hr h := h.memRead hr
  write hx hw h := h.memWrite hx hw
  cop0 hw h := by
    rw [cop0Write_frame hw]
    exact h.of_same rfl rfl rfl rfl
  leave _ h := h.of_same rfl rfl rfl rfl

theorem kept_cfg (cfg : Params) : Kept (fun s => s.cfg = cfg) where
  retire _ _ h := h
  exc _ _ h := h
  read hr h := (congrArg State.cfg (memRead_frame hr)).trans h
  write _ hw h := (congrArg State.cfg (memWrite_frame hw)).trans h
  cop0 hw h := (congrArg State.cfg (cop0Write_frame hw)).trans h
  leave _ h := h

/-! Host entries. -/

/-- An introspection write of CHCR keeps its fixed bits. -/
theorem chcrValue_pokedChcr {n : Chan} {v old : Word} (h : chcrValue n old = old) :
    chcrValue n (pokedChcr n v old) = pokedChcr n v old := by
  have bits : ∀ v o m f b : Bool, (o && m || f) = o →
      (((v && m || f) && !b || o && b) && m || f) = ((v && m || f) && !b || o && b) := by decide
  ext i hi
  have h := congrArg (fun x : Word => x[i]) h
  simp only [pokedChcr, chcrValue, BitVec.getElem_or, BitVec.getElem_and, BitVec.getElem_not] at h ⊢
  exact bits _ _ _ _ _ h

theorem chcrStart_pokedChcr (n : Chan) (v old : Word) : chcrStart (pokedChcr n v old) = chcrStart old := by
  simp [chcrStart, pokedChcr, startBit]

theorem Inv.pokeDmaReg {s : State} (h : Inv s) (r : DmaReg) (v : Word) : Inv (pokeDmaReg r v s) := by
  cases r with
  | madr n | bcr n => exact h.setChan ((h.channel n).of_same rfl rfl)
  | chcr n =>
    have hn := h.channel n
    exact h.setChan ⟨chcrValue_pokedChcr hn.fixed, hn.start.trans (chcrStart_pokedChcr n v _).symm⟩
  | dpcr | dicr => exact h.of_same rfl rfl rfl rfl

/-- The cells an introspection write reaches belong to the map. -/
theorem cellInMap_of_introspectAt {cfg : Params} {x : Word} {w : Width} {h : Handler} {off a : Nat}
    (hx : introspectAt cfg x w = some (h, off)) (ha : cellOf h off = some a) : ∀ k < widthBytes w, cellInMap (a + k) = true := by
  intro k hk
  rw [introspectAt_eq] at hx
  split at hx
  · simp at hx
  · next hal =>
    exact cellInMap_of_memoryAt (memoryAt_of_handlerAt hx ha) (by simpa using hal) hk

theorem Inv.introspectWrite {s : State} (h : Inv s) (x : Word) (w : Width) (v : Word) : Inv (introspectWrite x w v s) := by
  unfold Machine.introspectWrite
  have hcell := @cellInMap_of_introspectAt s.cfg x w
  cases hx : introspectAt s.cfg x w with
  | none => exact h
  | some place =>
    obtain ⟨handler, off⟩ := place
    cases handler with
    | ram | spad | bios => exact h.setMem (h.memory.writeMem (hcell hx rfl))
    | irq =>
      dsimp only
      split
      · split
        · exact h.of_same rfl rfl rfl rfl
        · exact h.of_same rfl rfl rfl rfl
      · exact h
    | dma =>
      dsimp only
      split
      · exact h
      · split
        · exact h.pokeDmaReg _ _
        · exact h
    | cacheCtl =>
      dsimp only
      split
      · exact h.of_same rfl rfl rfl rfl
      · exact h
    | external win => exact h

/-- Introspection changes no parameter. -/
theorem introspectWrite_cfg (x : Word) (w : Width) (v : Word) (s : State) : (introspectWrite x w v s).cfg = s.cfg := by
  unfold introspectWrite
  cases introspectAt s.cfg x w with
  | none => rfl
  | some place =>
    obtain ⟨handler, off⟩ := place
    cases handler with
    | ram | spad | bios | external win => rfl
    | cacheCtl => dsimp only; split <;> rfl
    | irq =>
      dsimp only
      split
      · split <;> rfl
      · rfl
    | dma =>
      dsimp only
      split
      · rfl
      · next r _ =>
        split
        · cases r <;> rfl
        · rfl

theorem pokeReg_agenda (r : HostReg) (v : Word) (s : State) : (pokeReg r v s).agenda = s.agenda := by
  cases r with
  | cop0 q => simp only [pokeReg, pokeCop0]; split <;> rfl
  | _ => rfl

theorem Inv.pokeReg {s : State} (h : Inv s) (r : HostReg) (v : Word) : Inv (pokeReg r v s) := by
  obtain ⟨hc, hm, hd, -⟩ := pokeReg_frame r v s
  exact h.of_same hm hd hc (pokeReg_agenda r v s)

theorem hostReset_chan (s : State) (n : Chan) : (hostReset s).chan n = Channel.reset n := by
  have reset : ∀ n : Chan, Snapshot.reset.dma.get n = Channel.reset n := by decide
  exact reset n

theorem Inv.hostReset {s : State} (h : Inv s) : Inv (hostReset s) := by
  obtain ⟨hmem, -, hmap, hsaved⟩ := inv_iff.1 h
  exact inv_iff.2 ⟨hmem, fun n => hostReset_chan s n ▸ channelInv_reset n, hmap, hsaved⟩

/-! Transitions. -/

theorem Inv.takeTurn {turn : Turn} {s t : State} (h : Inv s) (hv : ∀ snap, turn = .restore snap → snap.Inv)
    (ht : takeTurn turn s = .next t) : Inv t := by
  cases turn with
  | cpu => exact kept_inv.cpuStep (fun s hs => hs.of_same rfl rfl rfl rfl) h (ifEnabled_next ht).2.2
  | dma =>
    rw [← Host.Outcome.next.inj (ifEnabled_next ht).2.2]
    split
    · exact h.dmaStep
    · exact h
  | raise l | setReady n b => exact Host.Outcome.next.inj ht ▸ h.of_same rfl rfl rfl rfl
  | hostReset => exact Host.Outcome.next.inj ht ▸ h.hostReset
  | poke x w v => exact Host.Outcome.next.inj ht ▸ h.introspectWrite x w v
  | pokeReg r v => exact Host.Outcome.next.inj ht ▸ h.pokeReg r v
  | restore snap =>
    obtain ⟨rfl, hc⟩ := restore_next ht
    exact ⟨hv snap rfl, h.saved, hc⟩

theorem takeTurn_cfg {turn : Turn} {s t : State} (ht : takeTurn turn s = .next t) : t.cfg = s.cfg := by
  cases turn with
  | cpu => exact (kept_cfg s.cfg).cpuStep (fun _ hs => hs) rfl (ifEnabled_next ht).2.2
  | dma =>
    rw [← Host.Outcome.next.inj (ifEnabled_next ht).2.2]
    split
    · exact dmaStep_cfg s
    · rfl
  | raise l | setReady n b | hostReset => exact Host.Outcome.next.inj ht ▸ rfl
  | poke x w v => exact Host.Outcome.next.inj ht ▸ introspectWrite_cfg x w v s
  | pokeReg r v => exact Host.Outcome.next.inj ht ▸ (pokeReg_frame r v s).1
  | restore snap => rw [(restore_next ht).1]

theorem Inv.owedUnit {s : State} (h : Inv s) : Inv (owedUnit s) := h.dmaStep.of_same rfl rfl rfl rfl

/-- The state with the head of the agenda taken. -/
theorem Inv.dropTurn {s : State} (h : Inv s) {turn : Turn} {rest : List Turn} (ha : s.agenda = turn :: rest) :
    Inv { s with agenda := rest } :=
  h.of_fewer_turns rfl rfl rfl (ha ▸ List.subset_cons_self turn rest)

theorem Inv.catchUpTurn {s : State} (h : Inv s) : Inv (catchUpTurn s) := by
  unfold Machine.catchUpTurn
  split
  · next ha => exact (h.dropTurn ha).of_same rfl rfl rfl rfl
  · next ha => exact (h.dropTurn ha).of_same rfl rfl rfl rfl
  · next ha => exact (h.dropTurn ha).owedUnit
  · exact h.owedUnit

theorem catchUpTurn_cfg (s : State) : (catchUpTurn s).cfg = s.cfg := by
  unfold catchUpTurn
  split
  · rfl
  · rfl
  · exact owedUnit_cfg _
  · exact owedUnit_cfg _

theorem Inv.startTurn {s : State} (h : Inv s) : Inv (startTurn s) := h.of_fewer_turns rfl rfl rfl (List.tail_subset _)

/-- A save-state that the next turn restores stands in the agenda. -/
theorem restore_mem_of_nextTurn {s : State} {snap : Snapshot} (h : nextTurn s = .restore snap) : .restore snap ∈ s.agenda := by
  unfold nextTurn at h
  cases ha : s.agenda with
  | nil => simp [ha] at h
  | cons turn rest => simp_all

theorem Inv.step {s t : State} (h : Inv s) (ht : step s = .next t) : Inv t := by
  rcases (step_cases ht).2 with ⟨-, rfl⟩ | ⟨-, ht⟩
  · exact h.catchUpTurn
  · exact h.startTurn.takeTurn (fun snap hn => h.saved snap (restore_mem_of_nextTurn hn)) ht

theorem step_cfg {s t : State} (ht : step s = .next t) : t.cfg = s.cfg := by
  rcases (step_cases ht).2 with ⟨-, rfl⟩ | ⟨-, ht⟩
  · exact catchUpTurn_cfg s
  · exact (takeTurn_cfg ht).trans (startTurn_cfg s)

/-- Settles O58: a transition is one of `step_cases`, and what a stop leaves is the state before it with a mark. -/
theorem stepKeepsInvariant : Obligations.StepKeepsInvariant := by
  intro s h
  refine ⟨fun t ht => ⟨h.step ht, step_cfg ht⟩, ?_⟩
  rcases advance_cases s with ⟨t, ht, ha⟩ | ⟨f, -, ha⟩ | ⟨r, -, ha⟩ <;> rw [ha]
  · exact ⟨h.step ht, step_cfg ht⟩
  · exact ⟨h.startTurn.of_same (by simp) (by simp) (by simp) (by simp), by simp⟩
  · exact ⟨h.startTurn.of_same rfl rfl rfl rfl, rfl⟩

end Sys2Proof.Machine
end

section
/-! SUPPORT. The bus map by address: the physical address that KUSEG, KSEG0 and KSEG1 share, the handler behind it, and the registers of
the DMA window by their offsets. -/

namespace Sys2Proof.Machine

/-- The address at which each segment that shares the low 512 MiB begins (20_memory R80). -/
abbrev directSegments : List Word := [0x00000000#32, 0x80000000#32, 0xA0000000#32]

/-- `x` is the address of physical `p`, below 0x20000000, in KUSEG, KSEG0 or KSEG1 (20_memory R81). -/
def Direct (x : Word) (p : Nat) : Prop :=
  p < 0x20000000 ∧ (x.toNat = p ∨ x.toNat = p + 0x80000000 ∨ x.toNat = p + 0xA0000000)

theorem direct_add_segment {y seg : Word} (hs : seg ∈ directSegments) (hy : y.toNat < 0x20000000) :
    Direct (y + seg) y.toNat := by
  simp only [directSegments, List.mem_cons, List.not_mem_nil, or_false] at hs
  refine ⟨hy, ?_⟩
  rcases hs with rfl | rfl | rfl <;> rw [BitVec.toNat_add] <;> simp only [BitVec.toNat_ofNat] <;> omega

theorem Direct.add {x : Word} {p : Nat} (hx : Direct x p) {k : Word} (hk : p + k.toNat < 0x20000000) :
    Direct (x + k) (p + k.toNat) := by
  refine ⟨hk, ?_⟩
  rw [BitVec.toNat_add]
  rcases hx.2 with h | h | h <;> omega

/-- Such an address lies in no other segment, and translates to its physical address (20_memory R81). -/
theorem Direct.translate {x : Word} {p : Nat} (hx : Direct x p) : segmentOf x ≠ .kseg2 ∧ (physAddr x).toNat = p := by
  obtain ⟨hp, h | h | h⟩ := hx
  · obtain ⟨hseg, hphys⟩ := physAddr_kuseg (v := x) (by omega)
    exact ⟨by simp [hseg], by omega⟩
  · obtain ⟨hseg, hphys⟩ := physAddr_kseg0 (v := x) (by omega) (by omega)
    exact ⟨by simp [hseg], by omega⟩
  · obtain ⟨hseg, hphys⟩ := physAddr_kseg1 (v := x) (by omega) (by omega)
    exact ⟨by simp [hseg], by omega⟩

theorem Direct.physAddr_eq {x : Word} {p : Nat} (hx : Direct x p) : physAddr x = x &&& 0x1FFFFFFF#32 := by
  apply BitVec.eq_of_toNat_eq
  rw [hx.translate.2, BitVec.toNat_and, show (0x1FFFFFFF#32).toNat = 2 ^ 29 - 1 by rfl, Nat.and_two_pow_sub_one_eq_mod]
  obtain ⟨hp, h | h | h⟩ := hx <;> omega

/-- It is as aligned as its physical address. -/
theorem Direct.aligned {x : Word} {p : Nat} (hx : Direct x p) (hp : p % 4 = 0) : x.toNat % widthBytes .b32 = 0 := by
  rw [widthBytes]
  rcases hx.2 with h | h | h <;> omega

/-! The core map (20_memory R89). -/

/-- An entry below an address does not hold it. -/
theorem entryCovers_of_end_le {b n p : Nat} (h : Handler) (l : List Segment) (seg : Segment) (hp : b + n ≤ p) :
    entryCovers ⟨b, n, h, l⟩ p seg = false := by
  simp [entryCovers, Nat.not_lt.2 hp]

/-- An entry above an address does not hold it. -/
theorem entryCovers_of_lt_base {b n p : Nat} (h : Handler) (l : List Segment) (seg : Segment) (hp : p < b) :
    entryCovers ⟨b, n, h, l⟩ p seg = false := by
  simp [entryCovers, Nat.not_le.2 hp]

theorem lookup_irq {cfg : Params} {p : Nat} {seg : Segment} (h0 : 0x1F801070 ≤ p) (h1 : p < 0x1F801078) (hs : seg ≠ .kseg2) :
    lookup cfg p seg = some ⟨0x1F801070, 8, .irq, [.kuseg, .kseg0, .kseg1]⟩ := by
  have hit : entryCovers ⟨0x1F801070, 8, .irq, [.kuseg, .kseg0, .kseg1]⟩ p seg = true := by
    cases seg <;> simp_all [entryCovers]
  simp (disch := omega) [lookup, busMap, Layout.coreMap, Layout.ramWindow, Layout.spadBase, Layout.spadSize, Layout.irqBase,
    List.find?, entryCovers_of_end_le, hit]

theorem lookup_dma {cfg : Params} {p : Nat} {seg : Segment} (h0 : 0x1F801080 ≤ p) (h1 : p < 0x1F801100) (hs : seg ≠ .kseg2) :
    lookup cfg p seg = some ⟨0x1F801080, 0x80, .dma, [.kuseg, .kseg0, .kseg1]⟩ := by
  have hit : entryCovers ⟨0x1F801080, 0x80, .dma, [.kuseg, .kseg0, .kseg1]⟩ p seg = true := by
    cases seg <;> simp_all [entryCovers]
  simp (disch := omega) [lookup, busMap, Layout.coreMap, Layout.ramWindow, Layout.spadBase, Layout.spadSize, Layout.irqBase,
    Layout.dmaBase, List.find?, entryCovers_of_end_le, hit]

theorem lookup_cacheCtl {cfg : Params} {p : Nat} (h0 : 0xFFFE0130 ≤ p) (h1 : p < 0xFFFE0134) :
    lookup cfg p .kseg2 = some ⟨0xFFFE0130, 4, .cacheCtl, [.kseg2]⟩ := by
  have hit : entryCovers ⟨0xFFFE0130, 4, .cacheCtl, [.kseg2]⟩ p .kseg2 = true := by
    simp_all [entryCovers]
  simp (disch := omega) [lookup, busMap, Layout.coreMap, Layout.ramWindow, Layout.spadBase, Layout.spadSize, Layout.irqBase,
    Layout.dmaBase, Layout.biosBase, Layout.biosSize, Layout.cacheCtlBase, List.find?, entryCovers_of_end_le, hit]

theorem handlerAt_irq {cfg : Params} {x : Word} {off : Nat} (hx : Direct x (0x1F801070 + off)) (ho : off < 8) :
    handlerAt cfg x = some (.irq, off) := by
  obtain ⟨hseg, hphys⟩ := hx.translate
  exact handlerAt_of_lookup (lookup_irq (by omega) (by omega) hseg) hphys

theorem handlerAt_dma {cfg : Params} {x : Word} {off : Nat} (hx : Direct x (0x1F801080 + off)) (ho : off < 0x80) :
    handlerAt cfg x = some (.dma, off) := by
  obtain ⟨hseg, hphys⟩ := hx.translate
  exact handlerAt_of_lookup (lookup_dma (by omega) (by omega) hseg) hphys

theorem handlerAt_cacheCtl {cfg : Params} {x : Word} {off : Nat} (hx : x.toNat = 0xFFFE0130 + off) (ho : off < 4) :
    handlerAt cfg x = some (.cacheCtl, off) := by
  obtain ⟨hseg, hphys⟩ := physAddr_kseg2 (v := x) (by omega)
  exact handlerAt_of_lookup (hseg ▸ lookup_cacheCtl (by omega) (by omega)) (hphys.trans hx)

/-! The registers of the DMA window (20_memory R92). -/

/-- The offset of a register in the DMA window. -/
def DmaReg.offset (r : DmaReg) : Nat :=
  match r with
  | .madr n => 16 * n.val
  | .bcr n => 16 * n.val + 4
  | .chcr n => 16 * n.val + 8
  | .dpcr => 0x70
  | .dicr => 0x74

theorem DmaReg.offset_lt (r : DmaReg) : r.offset + 4 ≤ 0x78 := by
  cases r <;> simp only [DmaReg.offset] <;> omega

theorem DmaReg.offset_mod_four (r : DmaReg) : r.offset % 4 = 0 := by
  cases r <;> simp only [DmaReg.offset] <;> omega

/-- Every byte of a register's word belongs to the register. -/
theorem dmaRegAt_offset (r : DmaReg) {k : Nat} (hk : k < 4) : dmaRegAt (r.offset + k) = some r := by
  have perChan : ∀ (n : Chan) (k : Fin 4), dmaRegAt (16 * n.val + k.val) = some (.madr n) ∧
      dmaRegAt (16 * n.val + 4 + k.val) = some (.bcr n) ∧ dmaRegAt (16 * n.val + 8 + k.val) = some (.chcr n) := by decide
  have common : ∀ k : Fin 4, dmaRegAt (0x70 + k.val) = some .dpcr ∧ dmaRegAt (0x74 + k.val) = some .dicr := by decide
  cases r with
  | madr n => exact (perChan n ⟨k, hk⟩).1
  | bcr n => exact (perChan n ⟨k, hk⟩).2.1
  | chcr n => exact (perChan n ⟨k, hk⟩).2.2
  | dpcr => exact (common ⟨k, hk⟩).1
  | dicr => exact (common ⟨k, hk⟩).2

/-- The offsets of the holes of the window: the fourth word of each channel and the words after DICR. -/
abbrev IsDmaHole (off : Nat) : Prop := (∃ n : Chan, off = 16 * n.val + 12) ∨ off = 0x78 ∨ off = 0x7C

theorem dmaRegAt_hole {off k : Nat} (ho : IsDmaHole off) (hk : k < 4) :
    dmaRegAt (off + k) = none := by
  have perChan : ∀ (n : Chan) (k : Fin 4), dmaRegAt (16 * n.val + 12 + k.val) = none := by decide
  have common : ∀ k : Fin 4, dmaRegAt (0x78 + k.val) = none ∧ dmaRegAt (0x7C + k.val) = none := by decide
  rcases ho with ⟨n, rfl⟩ | rfl | rfl
  · exact perChan n ⟨k, hk⟩
  · exact (common ⟨k, hk⟩).1
  · exact (common ⟨k, hk⟩).2

end Sys2Proof.Machine
end

section
/-! SUPPORT. Bus accesses (20_memory): memory, unmapped addresses, the interrupt controller, the DMA window, CACHECTL and external
windows. -/

namespace Sys2Proof.Machine

/-- Settles O6: `memRead_memory` at the pc. -/
theorem fetchReadsMemory : Obligations.FetchReadsMemory := by
  intro s h a hm
  exact memRead_memory hm

theorem memRead_of_unmapped {s : State} {x : Word} (hx : lookup s.cfg (physAddr x).toNat (segmentOf x) = none) (w : Width) :
    memRead x w s = unmappedRead (physAddr x) w s := by
  simp [memRead, hx]

theorem memWrite_of_unmapped {s : State} {x : Word} (hx : lookup s.cfg (physAddr x).toNat (segmentOf x) = none) (w : Width)
    (v : Word) : memWrite x w v s = unmappedWrite (physAddr x) w s := by
  simp [memWrite, hx]

theorem unmapped_of_lenient {s : State} (h : s.cfg.busPolicy = .lenient) (p : Word) (w : Width) :
    unmappedRead p w s = .ok (clip w s.cfg.openBusValue, s) ∧ unmappedWrite p w s = .ok s := by
  simp [unmappedRead, unmappedWrite, h]

theorem unmapped_of_strict {s : State} (h : s.cfg.busPolicy = .strict) (p : Word) (w : Width) :
    unmappedRead p w s = .error (.busFault p (widthBytes w) .read) ∧
      unmappedWrite p w s = .error (.busFault p (widthBytes w) .write) := by
  simp [unmappedRead, unmappedWrite, h]

/-- Settles O32: an address no entry covers goes to the unmapped policy. -/
theorem unmappedAccess : Obligations.UnmappedAccess := by
  intro s x v hx
  refine ⟨fun hl => ?_, fun hs p hp => ?_⟩
  · have lenient := unmapped_of_lenient hl (physAddr x)
    simp only [memRead_of_unmapped hx, memWrite_of_unmapped hx]
    exact ⟨(lenient .b8).1, (lenient .b16).1, (lenient .b32).1, fun w => (lenient w).2⟩
  · have hbytes : widthBytes p.1 = p.2 := by
      revert p
      decide
    rw [memRead_of_unmapped hx, memWrite_of_unmapped hx, ← hbytes]
    exact unmapped_of_strict hs (physAddr x) p.1

/-- Settles O35: an entry of an external window answers with `externalRead` and `externalWrite`. -/
theorem externalWindowAccess : Obligations.ExternalWindowAccess := by
  intro s x v win segs base size hx
  simp only [memRead, memWrite, hx, List.forall_mem_cons]
  exact ⟨⟨rfl, rfl⟩, ⟨rfl, rfl⟩, ⟨rfl, rfl⟩, List.forall_mem_nil _⟩

/-! What the segments reach (20_memory R89). -/

/-- The scratchpad's range holds no other core entry, and the scratchpad is not reached through KSEG1. -/
theorem lookup_kseg1_scratchpad {cfg : Params} (he : cfg.external = []) {p : Nat} (h0 : 0x1F800000 ≤ p) (h1 : p < 0x1F800400) :
    lookup cfg p .kseg1 = none := by
  have spad : entryCovers ⟨0x1F800000, 0x400, .spad, [.kuseg, .kseg0]⟩ p .kseg1 = false := by simp [entryCovers]
  simp (disch := omega) [lookup, busMap, he, Layout.coreMap, Layout.ramWindow, Layout.spadBase, Layout.spadSize, Layout.irqBase,
    Layout.dmaBase, Layout.biosBase, Layout.biosSize, Layout.cacheCtlBase, entryCovers_of_end_le, entryCovers_of_lt_base, spad]

/-- Settles O31: RAM and the BIOS at their physical address through each of the three segments, the scratchpad through two of them. -/
theorem memoryMap : Obligations.MemoryMap := by
  intro cfg x
  refine ⟨fun hx seg hs => ?_, fun hx base hb => ?_, fun hx base hb => ?_, fun hx he => ?_⟩
  · obtain ⟨hseg, hphys⟩ := (direct_add_segment hs (y := x) (by omega)).translate
    exact (memoryAt_of_range rfl hphys).1 hx hseg
  · have hbase : base.toNat = 0x1F800000 ∨ base.toNat = 0x9F800000 := by
      revert base
      simp
    have hsum : (x + base).toNat = x.toNat + base.toNat := BitVec.toNat_add_of_lt (by omega)
    rcases hbase with h | h
    · obtain ⟨hseg, hphys⟩ := physAddr_kuseg (v := x + base) (by omega)
      rw [show 0x1F800000 + x.toNat = (physAddr (x + base)).toNat by omega]
      exact (memoryAt_of_range hseg rfl).2.1 (by omega) (by omega) (.inl rfl)
    · obtain ⟨hseg, hphys⟩ := physAddr_kseg0 (v := x + base) (by omega) (by omega)
      rw [show 0x1F800000 + x.toNat = (physAddr (x + base)).toNat by omega]
      exact (memoryAt_of_range hseg rfl).2.1 (by omega) (by omega) (.inr rfl)
  · have hbase : base.toNat = 0x1FC00000 ∨ base.toNat = 0x9FC00000 ∨ base.toNat = 0xBFC00000 := by
      revert base
      simp
    have hsum : (x + base).toNat = x.toNat + base.toNat := BitVec.toNat_add_of_lt (by omega)
    have hx : Direct (x + base) (0x1FC00000 + x.toNat) := ⟨by omega, by omega⟩
    obtain ⟨hseg, hphys⟩ := hx.translate
    exact (memoryAt_of_range rfl hphys).2.2 (by omega) (by omega) hseg
  · have hsum : (x + 0xBF800000#32).toNat = x.toNat + 0xBF800000 := BitVec.toNat_add_of_lt (by
      rw [BitVec.toNat_ofNat]
      omega)
    obtain ⟨hseg, hphys⟩ := physAddr_kseg1 (v := x + 0xBF800000#32) (by omega) (by omega)
    rw [hseg]
    exact lookup_kseg1_scratchpad he (by omega) (by omega)

end Sys2Proof.Machine
end

section
/-! SUPPORT. The interrupt controller's window: I_STAT and I_MASK (20_memory R101, R104). -/

namespace Sys2Proof.Machine

/-- The low halfword of an eleven-bit register is the register. -/
theorem clip_b16_setWidth (r : BitVec 11) : clip .b16 (r.setWidth 32) = r.setWidth 32 := by
  apply BitVec.eq_of_toNat_eq
  have := r.isLt
  simp [clip]

/-- The low eleven bits of a halfword are those of the word. -/
theorem setWidth_clip_b16 (v : Word) : (clip .b16 v).setWidth 11 = v.setWidth 11 := by
  simp [clip]

/-- A halfword access at a register's offset does what the word access does (20_memory R104). -/
theorem irqRead_b16 {off : Nat} (hr : off % 4 = 0) (s : State) : irqRead off .b16 s = irqRead off .b32 s := by
  simp only [irqRead, irqRegister, hr, if_true]
  split <;> rw [clip_b16_setWidth]

theorem irqWrite_b16 {off : Nat} (hr : off % 4 = 0) (v : Word) (s : State) : irqWrite off .b16 v s = irqWrite off .b32 v s := by
  simp only [irqWrite, irqStore, acknowledge, setIMask, hr, if_true, setWidth_clip_b16]

section
variable {s : State} {x : Word} {off : Nat} (hx : Direct x (0x1F801070 + off)) (ho : off < 8)
include hx ho

theorem memRead_irq (w : Width) : memRead x w s = (irqRead off w s).access .irq (physAddr x) w s :=
  memRead_core (handlerAt_irq hx ho) nofun w

theorem memWrite_irq (w : Width) (v : Word) : memWrite x w v s = (irqWrite off w v s).access .irq (physAddr x) w s :=
  memWrite_core (handlerAt_irq hx ho) nofun w v

theorem memRead_irq_b16 (hr : off % 4 = 0) : memRead x .b16 s = memRead x .b32 s := by
  rw [memRead_irq hx ho, memRead_irq hx ho, irqRead_b16 hr]
  rfl

theorem memWrite_irq_b16 (hr : off % 4 = 0) (v : Word) : memWrite x .b16 v s = memWrite x .b32 v s := by
  rw [memWrite_irq hx ho, memWrite_irq hx ho, irqWrite_b16 hr]
  rfl

end

/-- Settles O33: at each offset of the controller's window, `irqRead` and `irqWrite`. -/
theorem interruptRegisters : Obligations.InterruptRegisters := by
  intro s v seg hseg
  have stat : Direct (0x1F801070#32 + seg) (0x1F801070 + 0) := direct_add_segment hseg (by decide)
  have mask : Direct (0x1F801074#32 + seg) (0x1F801070 + 4) := direct_add_segment hseg (by decide)
  have statHigh : Direct (0x1F801070#32 + seg + 2) (0x1F801070 + 2) := stat.add (by decide)
  have maskHigh : Direct (0x1F801074#32 + seg + 2) (0x1F801070 + 6) := mask.add (by decide)
  have readStat := memRead_irq (s := s) stat (by decide) .b32
  have readMask := memRead_irq (s := s) mask (by decide) .b32
  have writeStat := memWrite_irq (s := s) stat (by decide) .b32 v
  have writeMask := memWrite_irq (s := s) mask (by decide) .b32 v
  refine ⟨readStat, readMask, (memRead_irq_b16 stat (by decide) rfl).trans readStat,
    (memRead_irq_b16 mask (by decide) rfl).trans readMask, memRead_irq statHigh (by decide) .b16,
    memRead_irq maskHigh (by decide) .b16, writeStat, (memWrite_irq_b16 stat (by decide) rfl v).trans writeStat,
    writeMask, (memWrite_irq_b16 mask (by decide) rfl v).trans writeMask, memWrite_irq statHigh (by decide) .b16 v,
    memWrite_irq maskHigh (by decide) .b16 v, fun k hk => ?_⟩
  have hk : k.toNat < 8 := by
    revert k
    simp
  have byte : Direct (0x1F801070#32 + seg + k) (0x1F801070 + k.toNat) := stat.add (by omega)
  exact ⟨memRead_irq byte hk .b8, memWrite_irq byte hk .b8 v⟩

end Sys2Proof.Machine
end

section
/-! SUPPORT. The DMA window and CACHECTL (20_memory R91, R92, R104). -/

namespace Sys2Proof.Machine

/-- The offsets and widths of the accesses narrower than a word. -/
abbrev narrowAccesses : List (Word × Width) :=
  [(0#32, .b16), (2#32, .b16), (0#32, .b8), (1#32, .b8), (2#32, .b8), (3#32, .b8)]

theorem narrow_of_mem {k : Word × Width} (hk : k ∈ narrowAccesses) : k.1.toNat < 4 ∧ k.2 ≠ .b32 := by
  revert k
  simp

theorem memRead_dma {s : State} {x : Word} {off : Nat} (hx : Direct x (0x1F801080 + off)) (ho : off < 0x80) (w : Width) :
    memRead x w s = (dmaRead off w s).access .dma (physAddr x) w s :=
  memRead_core (handlerAt_dma hx ho) nofun w

theorem memWrite_dma {s : State} {x : Word} {off : Nat} (hx : Direct x (0x1F801080 + off)) (ho : off < 0x80) (w : Width)
    (v : Word) : memWrite x w v s = (dmaWrite off w v s).access .dma (physAddr x) w s :=
  memWrite_core (handlerAt_dma hx ho) nofun w v

/-- A word read of a DMA register. -/
theorem memRead_dmaReg {s : State} {x : Word} (r : DmaReg) (hx : Direct x (0x1F801080 + r.offset)) :
    memRead x .b32 s = .ok (dmaRegWord r s, noteCall .dma s) := by
  have hr := r.offset_lt
  have hat : dmaRegAt r.offset = some r := dmaRegAt_offset r (k := 0) (by decide)
  rw [memRead_dma hx (by omega), dmaRead, hat]
  rfl

/-- A narrow access anywhere in a DMA register's word faults (log 28). -/
theorem narrow_dmaReg {s : State} {x : Word} (r : DmaReg) (hx : Direct x (0x1F801080 + r.offset)) {k : Word × Width}
    (hk : k ∈ narrowAccesses) (v : Word) :
    memRead (x + k.1) k.2 s = .error .mmioWidth ∧ memWrite (x + k.1) k.2 v s = .error .mmioWidth := by
  obtain ⟨hk4, hw⟩ := narrow_of_mem hk
  have hr := r.offset_lt
  have hxk : Direct (x + k.1) (0x1F801080 + (r.offset + k.1.toNat)) := Nat.add_assoc .. ▸ hx.add (by omega)
  rw [memRead_dma hxk (by omega), memWrite_dma hxk (by omega), dmaRead, dmaWrite, dmaRegAt_offset r hk4]
  simp only [hw, if_false]
  exact ⟨rfl, rfl⟩

theorem narrow_cacheCtl {s : State} {k : Word × Width} (hk : k ∈ narrowAccesses) (v : Word) :
    memRead (0xFFFE0130#32 + k.1) k.2 s = .error .mmioWidth ∧ memWrite (0xFFFE0130#32 + k.1) k.2 v s = .error .mmioWidth := by
  obtain ⟨hk4, hw⟩ := narrow_of_mem hk
  have hx : (0xFFFE0130#32 + k.1).toNat = 0xFFFE0130 + k.1.toNat := BitVec.toNat_add_of_lt (by
    rw [BitVec.toNat_ofNat]
    omega)
  have hat := handlerAt_cacheCtl (cfg := s.cfg) hx hk4
  rw [memRead_core hat nofun, memWrite_core hat nofun, coreRead, coreWrite]
  simp only [hw, if_false]
  exact ⟨rfl, rfl⟩

/-- An access of any width in a hole's word is an unmapped access (20_memory R92, log 28). -/
theorem access_dmaHole {s : State} {x : Word} {off : Nat} (ho : IsDmaHole off) (hx : Direct x (0x1F801080 + off))
    {k : Word × Width} (hk : k ∈ (0#32, .b32) :: narrowAccesses) (v : Word) :
    memRead (x + k.1) k.2 s = unmappedRead ((x + k.1) &&& 0x1FFFFFFF#32) k.2 s ∧
      memWrite (x + k.1) k.2 v s = unmappedWrite ((x + k.1) &&& 0x1FFFFFFF#32) k.2 s := by
  have hk4 : k.1.toNat < 4 := by
    rcases List.mem_cons.1 hk with rfl | hk
    · decide
    · exact (narrow_of_mem hk).1
  have hend : off + 4 ≤ 0x80 := by omega
  have hxk : Direct (x + k.1) (0x1F801080 + (off + k.1.toNat)) := Nat.add_assoc .. ▸ hx.add (by omega)
  rw [memRead_dma hxk (by omega), memWrite_dma hxk (by omega), dmaRead, dmaWrite, dmaRegAt_hole ho hk4, hxk.physAddr_eq]
  exact ⟨rfl, rfl⟩

/-- The address of channel n's registers (20_memory R92). -/
theorem direct_channel {seg : Word} (hs : seg ∈ directSegments) (n : Chan) :
    Direct (0x1F801080#32 + BitVec.ofNat 32 (16 * n.val) + seg) (0x1F801080 + 16 * n.val) := by
  have hy : (0x1F801080#32 + BitVec.ofNat 32 (16 * n.val)).toNat = 0x1F801080 + 16 * n.val := by
    rw [BitVec.toNat_add, BitVec.toNat_ofNat, BitVec.toNat_ofNat]
    omega
  exact hy ▸ direct_add_segment hs (by omega)

/-- A word of channel n's row of the window. -/
theorem Direct.channelReg {x : Word} {n : Chan} (hx : Direct x (0x1F801080 + 16 * n.val)) {k : Word} (hk : k.toNat < 16) :
    Direct (x + k) (0x1F801080 + (16 * n.val + k.toNat)) :=
  Nat.add_assoc .. ▸ hx.add (by omega)

/-- Settles O34: the registers at their offsets (`DmaReg.offset`), the holes between them, and CACHECTL. -/
theorem dmaWindowAndCacheControl : Obligations.DmaWindowAndCacheControl := by
  intro s n v seg hseg chan dpcr dicr call narrow openBus
  have madr : Direct chan (0x1F801080 + 16 * n.val) := direct_channel hseg n
  have bcr : Direct (chan + 4) (0x1F801080 + (16 * n.val + 4)) := madr.channelReg (by decide)
  have chcr : Direct (chan + 8) (0x1F801080 + (16 * n.val + 8)) := madr.channelReg (by decide)
  have hole : Direct (chan + 12) (0x1F801080 + (16 * n.val + 12)) := madr.channelReg (by decide)
  have hdpcr : Direct dpcr (0x1F801080 + DmaReg.dpcr.offset) := direct_add_segment hseg (by decide)
  have hdicr : Direct dicr (0x1F801080 + DmaReg.dicr.offset) := direct_add_segment hseg (by decide)
  have cacheCtl := handlerAt_cacheCtl (cfg := s.cfg) (x := 0xFFFE0130#32) (off := 0) (by decide) (by decide)
  refine ⟨memRead_dmaReg (.madr n) madr, memRead_dmaReg (.bcr n) bcr, memRead_dmaReg (.chcr n) chcr, memRead_dmaReg _ hdpcr,
    memRead_dmaReg _ hdicr,
    ?_, ?_, memRead_core cacheCtl nofun .b32, memWrite_core cacheCtl nofun .b32 v⟩
  · simp only [List.forall_mem_cons]
    exact ⟨fun k hk => narrow_dmaReg (.madr n) madr hk v, fun k hk => narrow_dmaReg (.bcr n) bcr hk v,
      fun k hk => narrow_dmaReg (.chcr n) chcr hk v, fun k hk => narrow_dmaReg _ hdpcr hk v,
      fun k hk => narrow_dmaReg _ hdicr hk v, fun k hk => narrow_cacheCtl hk v,
      List.forall_mem_nil _⟩
  · intro x hx k hk
    obtain ⟨off, ho, hxo⟩ : ∃ off, IsDmaHole off ∧ Direct x (0x1F801080 + off) := by
      simp only [List.mem_cons, List.not_mem_nil, or_false] at hx
      rcases hx with rfl | rfl | rfl
      · exact ⟨_, .inl ⟨n, rfl⟩, hole⟩
      · exact ⟨0x78, .inr (.inl rfl), hdicr.add (by decide)⟩
      · exact ⟨0x7C, .inr (.inr rfl), hdicr.add (by decide)⟩
    obtain ⟨hread, hwrite⟩ := access_dmaHole (s := s) ho hxo hk v
    have hopen : openBus k.2 = clip k.2 s.cfg.openBusValue := by cases k.2 <;> rfl
    rw [hread, hwrite, hopen]
    exact ⟨fun hl => unmapped_of_lenient hl _ _, fun hs => unmapped_of_strict hs _ _⟩

end Sys2Proof.Machine
end

section
/-! SUPPORT. Host introspection (20_memory R108): what it reads and what it sets. -/

namespace Sys2Proof.Machine

theorem introspectAt_of_aligned {cfg : Params} {x : Word} {w : Width} (hal : x.toNat % widthBytes w = 0) :
    introspectAt cfg x w = handlerAt cfg x := by
  rw [introspectAt_eq, misaligned_eq_false.2 hal]
  rfl

/-- A misaligned address, or one that no entry covers, holds nothing (log 31). -/
theorem introspectAt_eq_none {cfg : Params} {x : Word} {w : Width}
    (h : lookup cfg (physAddr x).toNat (segmentOf x) = none ∨ x.toNat % widthBytes w ≠ 0) : introspectAt cfg x w = none := by
  rw [introspectAt_eq]
  rcases h with h | h
  · simp [handlerAt, h]
  · rw [if_pos (by simp [misaligned, h])]

/-- Introspection of memory: the value at the cell, and a write of the cell, of the BIOS too. -/
theorem introspect_memory {s : State} {x : Word} {h : Handler} {a : Nat} (hm : memoryAt s.cfg x = some (h, a)) {w : Width}
    (hal : x.toNat % widthBytes w = 0) (v : Word) :
    introspectRead x w s = some (readMem s.mem a w) ∧ introspectWrite x w v s = { s with mem := writeMem s.mem a w v } := by
  obtain ⟨off, hx, hc⟩ := handlerAt_of_memoryAt hm
  rw [introspectRead, introspectWrite, introspectAt_of_aligned hal, hx]
  cases h <;> simp only [cellOf, Option.some.injEq, reduceCtorEq] at hc <;> subst hc <;> exact ⟨rfl, rfl⟩

/-- Introspection of I_STAT and I_MASK. -/
theorem introspect_irq {s : State} {x : Word} {off : Nat} (hx : Direct x (0x1F801070 + off)) (ho : off = 0 ∨ off = 4) (v : Word) :
    introspectRead x .b32 s = some (irqRegister off s) ∧
      introspectWrite x .b32 v s = if off < 4 then { s with iStat := v.setWidth 11 } else { s with iMask := v.setWidth 11 } := by
  rw [introspectRead, introspectWrite, introspectAt_of_aligned (hx.aligned (by omega)), handlerAt_irq hx (by omega)]
  exact ⟨rfl, rfl⟩

/-- Introspection of CACHECTL. -/
theorem introspect_cacheCtl (s : State) (v : Word) :
    introspectRead 0xFFFE0130#32 .b32 s = some s.cacheCtl ∧ introspectWrite 0xFFFE0130#32 .b32 v s = { s with cacheCtl := v } := by
  rw [introspectRead, introspectWrite, introspectAt_of_aligned (by decide), handlerAt_cacheCtl (off := 0) (by decide) (by decide)]
  exact ⟨rfl, rfl⟩

/-- Introspection of a DMA register. -/
theorem introspect_dmaReg {s : State} {x : Word} (r : DmaReg) (hx : Direct x (0x1F801080 + r.offset)) (v : Word) :
    introspectRead x .b32 s = some (dmaRegWord r s) ∧ introspectWrite x .b32 v s = pokeDmaReg r v s := by
  have hr := r.offset_lt
  have hr4 := r.offset_mod_four
  have hat : dmaRegAt r.offset = some r := dmaRegAt_offset r (k := 0) (by decide)
  rw [introspectRead, introspectWrite, introspectAt_of_aligned (hx.aligned (by omega)), handlerAt_dma hx (by omega)]
  simp only [coreRead, dmaRead, hat, if_true, and_self]

/-- The mask of an introspection write of CHCR: the bits a write sets (10_state R52, R53), but START. -/
theorem pokedChcr_eq (n : Chan) (v old : Word) : pokedChcr n v old =
    ((v &&& (if n = 6 then 0x50000000#32 else 0x70770703#32)) ||| (if n = 6 then 2#32 else 0#32)) ||| (old &&& 0x01000000#32) := by
  rw [pokedChcr, chcrValue, BitVec.and_or_distrib_right, BitVec.and_assoc]
  by_cases h : n = 6
  · subst h
    rfl
  · simp only [Layout.chcrMask, Layout.chcrFixed, h, if_false]
    rfl

theorem pokeGpr_reg (s : State) (q r : Reg) (v : Word) :
    (pokeGpr q v s).reg r = if r = 0 then 0 else if r = q then v else s.reg r := by
  have h : (pokeGpr q v s).reg r = (s.gpr.write q v).read r := rfl
  rw [h, RegFile.read_write]
  simp only [@eq_comm _ q r]
  rfl

/-- Settles O47: introspection of memory, of the device registers and of the registers, each at its place. -/
theorem introspection : Obligations.Introspection := by
  intro s x v w n q chan c t
  refine ⟨fun h a hm hal => ?_, fun hx => ?_, ?_, ?_, rfl, rfl, fun r => pokeGpr_reg s q r v⟩
  · obtain ⟨hread, hwrite⟩ := introspect_memory hm hal v
    refine ⟨hread.trans (by cases w <;> rfl), ?_, fun y => ?_⟩
    · rw [show t = _ from hwrite]
    · rw [show t = _ from hwrite]
      exact readByte_writeMem _ _ _ _ _
  · have hat := introspectAt_eq_none hx
    simp only [introspectRead, introspectWrite, hat, t, and_self]
  · have madr : Direct chan (0x1F801080 + 16 * n.val) := by simpa using direct_channel (seg := 0x00000000#32) (by simp) n
    simp only [List.forall_mem_cons]
    refine ⟨introspect_irq (off := 0) ⟨by decide, .inl rfl⟩ (.inl rfl) v,
      introspect_irq (off := 4) ⟨by decide, .inl rfl⟩ (.inr rfl) v,
      introspect_dmaReg (.madr n) madr v, introspect_dmaReg (.bcr n) (madr.channelReg (k := 4) (by decide)) v, ?_,
      introspect_dmaReg .dpcr ⟨by decide, .inl rfl⟩ v, introspect_dmaReg .dicr ⟨by decide, .inl rfl⟩ v,
      introspect_cacheCtl s v, List.forall_mem_nil _⟩
    rw [← pokedChcr_eq]
    exact introspect_dmaReg (.chcr n) (madr.channelReg (k := 8) (by decide)) v
  · simp only [List.forall_mem_cons]
    refine ⟨?hi, ?lo, ?pc, ?bpc, ?bda, ?dcic, ?badVAddr, ?bdam, ?bpcm, ?sr, ?cause, ?epc, ?prid, List.forall_mem_nil _⟩
    all_goals exact ⟨rfl, rfl⟩

end Sys2Proof.Machine
end

section
/-! SUPPORT. Fields under a mask, and each format from its fields: what a mask keeps or clears, and that a word with the fields of a
format is the word the format assembles. -/

namespace Sys2Proof

theorem field_and_kept {w k : Word} {a n : Nat} (hk : k.extractLsb' a n = BitVec.allOnes n) :
    (w &&& k).extractLsb' a n = w.extractLsb' a n := by
  rw [BitVec.extractLsb'_and, hk, BitVec.and_allOnes]

theorem field_and_cleared {w k : Word} {a n : Nat} (hk : k.extractLsb' a n = 0#n) : (w &&& k).extractLsb' a n = 0#n := by
  rw [BitVec.extractLsb'_and, hk, BitVec.and_zero]

/-! Two words that agree on a mask agree on the fields in it. -/

section
variable {v w k : Word} (h : w &&& k = v &&& k)
include h

theorem field_eq_of_and_eq {a n : Nat} (hk : k.extractLsb' a n = BitVec.allOnes n) : w.extractLsb' a n = v.extractLsb' a n := by
  rw [← field_and_kept hk, h, field_and_kept hk]

theorem opOf_eq_of_and_eq : k.extractLsb' 26 6 = BitVec.allOnes 6 → opOf w = opOf v := field_eq_of_and_eq h

theorem rsOf_eq_of_and_eq : k.extractLsb' 21 5 = BitVec.allOnes 5 → rsOf w = rsOf v := field_eq_of_and_eq h

theorem rtOf_eq_of_and_eq : k.extractLsb' 16 5 = BitVec.allOnes 5 → rtOf w = rtOf v := field_eq_of_and_eq h

theorem rdOf_eq_of_and_eq : k.extractLsb' 11 5 = BitVec.allOnes 5 → rdOf w = rdOf v := field_eq_of_and_eq h

theorem shamtOf_eq_of_and_eq : k.extractLsb' 6 5 = BitVec.allOnes 5 → shamtOf w = shamtOf v := field_eq_of_and_eq h

theorem functOf_eq_of_and_eq : k.extractLsb' 0 6 = BitVec.allOnes 6 → functOf w = functOf v := field_eq_of_and_eq h

theorem immOf_eq_of_and_eq : k.extractLsb' 0 16 = BitVec.allOnes 16 → immOf w = immOf v := field_eq_of_and_eq h

theorem targetOf_eq_of_and_eq : k.extractLsb' 0 26 = BitVec.allOnes 26 → targetOf w = targetOf v := field_eq_of_and_eq h

theorem codeOf_eq_of_and_eq : k.extractLsb' 6 20 = BitVec.allOnes 20 → codeOf w = codeOf v := field_eq_of_and_eq h

end

/-! A word is assembled from its fields. -/

theorem eq_rWord {v : Word} {rs rt rd : Reg} {shamt : BitVec 5} {funct : BitVec 6} (hop : opOf v = 0x00#6) (hrs : rsOf v = rs)
    (hrt : rtOf v = rt) (hrd : rdOf v = rd) (hshamt : shamtOf v = shamt) (hfunct : functOf v = funct) :
    v = rWord rs rt rd shamt funct := by
  subst hrs hrt hrd hshamt hfunct
  rw [rWord, ← hop, opOf, rsOf, rtOf, rdOf, shamtOf, functOf]
  repeat rw [BitVec.extractLsb'_append_extractLsb'_eq_extractLsb' (by rfl)]
  exact BitVec.extractLsb'_eq_self.symm

theorem eq_codeWord {v : Word} {code : BitVec 20} {funct : BitVec 6} (hop : opOf v = 0x00#6) (hcode : codeOf v = code)
    (hfunct : functOf v = funct) : v = codeWord code funct := by
  subst hcode hfunct
  rw [codeWord, ← hop, opOf, codeOf, functOf]
  repeat rw [BitVec.extractLsb'_append_extractLsb'_eq_extractLsb' (by rfl)]
  exact BitVec.extractLsb'_eq_self.symm

theorem eq_iWord {v : Word} {op : BitVec 6} {rs rt : Reg} {imm : BitVec 16} (hop : opOf v = op) (hrs : rsOf v = rs)
    (hrt : rtOf v = rt) (himm : immOf v = imm) : v = iWord op rs rt imm := by
  subst hop hrs hrt himm
  rw [iWord, opOf, rsOf, rtOf, immOf]
  repeat rw [BitVec.extractLsb'_append_extractLsb'_eq_extractLsb' (by rfl)]
  exact BitVec.extractLsb'_eq_self.symm

theorem eq_jWord {v : Word} {op : BitVec 6} {target : BitVec 26} (hop : opOf v = op) (htarget : targetOf v = target) :
    v = jWord op target := by
  subst hop htarget
  rw [jWord, opOf, targetOf, BitVec.extractLsb'_append_extractLsb'_eq_extractLsb' (by rfl)]
  exact BitVec.extractLsb'_eq_self.symm

theorem eq_cop0MoveWord {v : Word} {rs rt rd : Reg} (hop : opOf v = 0x10#6) (hrs : rsOf v = rs) (hrt : rtOf v = rt)
    (hrd : rdOf v = rd) (hlow : v.extractLsb' 0 11 = 0#11) : v = cop0MoveWord rs rt rd := by
  subst hrs hrt hrd
  rw [cop0MoveWord, ← hop, ← hlow, opOf, rsOf, rtOf, rdOf]
  repeat rw [BitVec.extractLsb'_append_extractLsb'_eq_extractLsb' (by rfl)]
  exact BitVec.extractLsb'_eq_self.symm

theorem eq_encode_rfe {v : Word} (hop : opOf v = 0x10#6) (hbit : v.extractLsb' 25 1 = 1#1) (hmid : v.extractLsb' 6 19 = 0#19)
    (hfunct : functOf v = 0x10#6) : v = encode .rfe := by
  have hfields : v = opOf v ++ v.extractLsb' 25 1 ++ v.extractLsb' 6 19 ++ functOf v := by
    rw [opOf, functOf]
    repeat rw [BitVec.extractLsb'_append_extractLsb'_eq_extractLsb' (by rfl)]
    exact BitVec.extractLsb'_eq_self.symm
  rw [hfields, hop, hbit, hmid, hfunct]
  rfl

/-- The bit that marks the operation form of COP0 (30_encoding R124) is the top bit of rs. -/
theorem getLsbD_25 (w : Word) : w.getLsbD 25 = decide (0x10 ≤ (rsOf w).toNat) := by
  have hmsb : (rsOf w).msb = w.getLsbD 25 := by simp [BitVec.msb_eq_getLsbD_last, rsOf]
  rw [← hmsb, BitVec.msb_eq_decide]

end Sys2Proof
end

section
/-! SUPPORT. What decode can answer, said once: the sub-map an op selects, the cells marked RI, and the words refused by name. -/

namespace Sys2Proof

/-- The primary opcodes of the cells marked RI (30_encoding R127). -/
def reservedOps : List Nat :=
  [0x14, 0x15, 0x16, 0x17, 0x18, 0x19, 0x1A, 0x1B, 0x1C, 0x1D, 0x1E, 0x1F, 0x27, 0x2C, 0x2D, 0x2F, 0x34, 0x35, 0x36, 0x37,
    0x3C, 0x3D, 0x3E, 0x3F]

/-- The function codes below 0x2C of the cells marked RI (30_encoding R128). -/
def reservedFuncts : List Nat :=
  [0x01, 0x05, 0x0A, 0x0B, 0x0E, 0x0F, 0x14, 0x15, 0x16, 0x17, 0x1C, 0x1D, 0x1E, 0x1F, 0x28, 0x29]

theorem submap_not_mem_reservedOps {n : Nat} (h : n ∈ reservedOps) : n ≠ 0x00 ∧ n ≠ 0x01 ∧ n ≠ 0x10 :=
  (by decide : ∀ n ∈ reservedOps, n ≠ 0x00 ∧ n ≠ 0x01 ∧ n ≠ 0x10) n h

/-- The primary map: op selects a sub-map, a cell marked RI or an instruction. -/
theorem decode_cases (w : Word) :
    ((opOf w).toNat = 0x00 ∧ decode w = decodeSpecial w) ∨ ((opOf w).toNat = 0x01 ∧ decode w = decodeRegimm w) ∨
    ((opOf w).toNat = 0x10 ∧ decode w = decodeCop0 w) ∨ ((opOf w).toNat ∈ reservedOps ∧ decode w = .reserved) ∨
    ((opOf w).toNat ∉ 0x00 :: 0x01 :: 0x10 :: reservedOps ∧ ∃ i, decode w = .instr i) := by
  have hlt := (opOf w).isLt
  rw [decode]
  split <;> rename_i hop
  case h_41 =>
    have hmem : (opOf w).toNat ∈ reservedOps := by
      simp only [imp_false, reservedOps, List.mem_cons, List.not_mem_nil, or_false] at *
      omega
    exact .inr (.inr (.inr (.inl ⟨hmem, rfl⟩)))
  all_goals simp [reservedOps, hop]

theorem decodeSpecial_cases (w : Word) : decodeSpecial w = .reserved ∨ ∃ i, decodeSpecial w = .instr i := by
  rw [decodeSpecial]
  split <;> simp

theorem decodeRegimm_cases (w : Word) : decodeRegimm w = .otherRegimm ∨ ∃ i, decodeRegimm w = .instr i := by
  rw [decodeRegimm]
  split <;> simp

theorem decodeCop0_cases (w : Word) : decodeCop0 w = .otherCop0 ∨ ∃ i, decodeCop0 w = .instr i := by
  rw [decodeCop0]
  split_ifs <;> simp

theorem decodeSpecial_eq_reserved_iff (w : Word) :
    decodeSpecial w = .reserved ↔ (functOf w).toNat ∈ reservedFuncts ∨ 0x2C ≤ (functOf w).toNat := by
  rw [decodeSpecial]
  split <;> rename_i hfunct
  case h_29 =>
    simp only [imp_false, reservedFuncts, List.mem_cons, List.not_mem_nil, or_false, true_iff] at *
    omega
  all_goals simp [hfunct, reservedFuncts]

theorem decodeRegimm_eq_otherRegimm_iff (w : Word) :
    decodeRegimm w = .otherRegimm ↔ (rtOf w).toNat ∉ [0x00, 0x01, 0x10, 0x11] := by
  rw [decodeRegimm]
  split <;> rename_i hrt
  case h_5 =>
    simp only [imp_false] at *
    simp [*]
  all_goals simp [hrt]

theorem decodeCop0_eq_otherCop0_iff (w : Word) : decodeCop0 w = .otherCop0 ↔
    rsOf w ≠ 0x00#5 ∧ rsOf w ≠ 0x04#5 ∧ ¬(0x10 ≤ (rsOf w).toNat ∧ functOf w = 0x10#6) := by
  rw [decodeCop0, getLsbD_25]
  split_ifs <;> simp_all

theorem decodeCop0_eq_rfe {w : Word} (hbit : w.getLsbD 25 = true) (hfunct : functOf w = 0x10#6) : decodeCop0 w = .instr .rfe := by
  have hrs : 0x10 ≤ (rsOf w).toNat := of_decide_eq_true (getLsbD_25 w ▸ hbit)
  have h0 : rsOf w ≠ 0x00#5 := fun h => absurd (h ▸ hrs) (by decide)
  have h4 : rsOf w ≠ 0x04#5 := fun h => absurd (h ▸ hrs) (by decide)
  rw [decodeCop0, if_neg h0, if_neg h4, if_pos (by simp [hbit, hfunct])]

/-- Settles O3: of the sub-maps only SPECIAL has reserved words, only REGIMM and COP0 have refused ones. -/
theorem reservedCells : Obligations.ReservedCells := by
  intro w
  change (_ ↔ (opOf w).toNat ∈ reservedOps ∨
      ((opOf w).toNat = 0 ∧ ((functOf w).toNat ∈ reservedFuncts ∨ _ ≤ (functOf w).toNat))) ∧
    (_ ↔ opOf w = 0x01#6 ∧ (rtOf w).toNat ∉ _) ∧
    (_ ↔ opOf w = 0x10#6 ∧ rsOf w ≠ 0x00#5 ∧ rsOf w ≠ 0x04#5 ∧ ¬(_ ≤ (rsOf w).toNat ∧ functOf w = 0x10#6))
  rw [← decodeSpecial_eq_reserved_iff, ← decodeRegimm_eq_otherRegimm_iff, ← decodeCop0_eq_otherCop0_iff, BitVec.toNat_eq,
    BitVec.toNat_eq]
  obtain ⟨hop, h⟩ | ⟨hop, h⟩ | ⟨hop, h⟩ | ⟨hop, h⟩ | ⟨hop, i, h⟩ := decode_cases w <;> rw [h]
  · obtain h | ⟨i, h⟩ := decodeSpecial_cases w <;> simp [h, hop, reservedOps]
  · obtain h | ⟨i, h⟩ := decodeRegimm_cases w <;> simp [h, hop, reservedOps]
  · obtain h | ⟨i, h⟩ := decodeCop0_cases w <;> simp [h, hop, reservedOps]
  · obtain ⟨h0, h1, h10⟩ := submap_not_mem_reservedOps hop
    simp [hop, h1, h10]
  · simp only [List.mem_cons, not_or] at hop
    simp [hop]

end Sys2Proof
end

section
/-! SUPPORT. Decode and encode (30_encoding R121 to R132): the bits an instruction uses decide that a word decodes to it, and hold what
its encoding holds. -/

namespace Sys2Proof

/-- A word with an instruction's used bits as its encoding has them decodes to it, whatever the other bits are: each field that decode
reads of it lies in the used bits. -/
theorem decode_eq_of_usedBits {w : Word} {i : Instr} (h : w &&& ~~~i.unusedBits = encode i &&& ~~~i.unusedBits) :
    decode w = .instr i := by
  cases i
  all_goals simp only [Instr.unusedBits] at h
  case rfe =>
    have hbit : w.getLsbD 25 = true := by
      rw [BitVec.getLsbD_eq_extractLsb', field_eq_of_and_eq h (by decide)]
      rfl
    have hop : opOf w = 0x10#6 := opOf_eq_of_and_eq h (by decide)
    simp [decode, hop, decodeCop0_eq_rfe hbit (functOf_eq_of_and_eq h (by decide))]
  all_goals
    simp [opOf_eq_of_and_eq h, rsOf_eq_of_and_eq h, rtOf_eq_of_and_eq h, rdOf_eq_of_and_eq h, shamtOf_eq_of_and_eq h,
      functOf_eq_of_and_eq h, immOf_eq_of_and_eq h, targetOf_eq_of_and_eq h, codeOf_eq_of_and_eq h, encode, decode, decodeSpecial,
      decodeRegimm, decodeCop0]

/-- Settles O1: the used bits of an encoding are the encoding's own. -/
theorem decodeOfEncode : Obligations.DecodeOfEncode := fun _ => decode_eq_of_usedBits rfl

/-! The converse, by sub-map: the used bits of a word are its instruction's encoding. -/

theorem usedBits_of_decodeSpecial {w : Word} {i : Instr} (hop : opOf w = 0x00#6) (h : decodeSpecial w = .instr i) :
    w &&& ~~~i.unusedBits = encode i := by
  have hfunct : functOf w = BitVec.ofNat 6 (functOf w).toNat := by simp
  rw [decodeSpecial] at h
  split at h <;> rename_i hf
  case h_29 => cases h
  all_goals
    obtain rfl := Decoded.instr.inj h
    rw [hf] at hfunct
    simp only [opOf, functOf] at hop hfunct
    simp only [encode, Instr.unusedBits]
  case h_9 | h_10 => -- SYSCALL and BREAK
    apply eq_codeWord <;> simp [opOf, codeOf, functOf, field_and_kept, hop, hfunct]
  all_goals
    apply eq_rWord <;>
      simp [opOf, rsOf, rtOf, rdOf, shamtOf, functOf, field_and_kept, field_and_cleared, hop, hfunct]

theorem usedBits_of_decodeRegimm {w : Word} {i : Instr} (hop : opOf w = 0x01#6) (h : decodeRegimm w = .instr i) :
    w &&& ~~~i.unusedBits = encode i := by
  have hrt : rtOf w = BitVec.ofNat 5 (rtOf w).toNat := by simp
  rw [decodeRegimm] at h
  split at h <;> rename_i hr
  case h_5 => cases h
  all_goals
    obtain rfl := Decoded.instr.inj h
    rw [hr] at hrt
    simp only [opOf, rtOf] at hop hrt
    simp only [encode, Instr.unusedBits]
    apply eq_iWord <;> simp [opOf, rsOf, rtOf, immOf, field_and_kept, hop, hrt]

theorem usedBits_of_decodeCop0 {w : Word} {i : Instr} (hop : opOf w = 0x10#6) (h : decodeCop0 w = .instr i) :
    w &&& ~~~i.unusedBits = encode i := by
  rw [decodeCop0] at h
  simp only [opOf] at hop
  split_ifs at h with hrs hrs hrfe
  case pos | pos =>
    obtain rfl := Decoded.instr.inj h
    simp only [rsOf] at hrs
    simp only [encode, Instr.unusedBits]
    apply eq_cop0MoveWord <;> simp [opOf, rsOf, rtOf, rdOf, field_and_kept, field_and_cleared, hop, hrs]
  · obtain rfl := Decoded.instr.inj h
    rw [Bool.and_eq_true, decide_eq_true_eq, BitVec.getLsbD_eq_extractLsb', beq_iff_eq] at hrfe
    obtain ⟨hbit, hfunct⟩ := hrfe
    simp only [functOf] at hfunct
    simp only [Instr.unusedBits]
    apply eq_encode_rfe <;> simp [opOf, functOf, field_and_kept, field_and_cleared, hop, hbit, hfunct]

theorem usedBits_of_decode {w : Word} {i : Instr} (h : decode w = .instr i) : w &&& ~~~i.unusedBits = encode i := by
  have hop : opOf w = BitVec.ofNat 6 (opOf w).toNat := by simp
  rw [decode] at h
  split at h <;> rename_i ho
  case h_41 => cases h
  all_goals rw [ho] at hop
  case h_1 => exact usedBits_of_decodeSpecial hop h
  case h_2 => exact usedBits_of_decodeRegimm hop h
  case h_3 => exact usedBits_of_decodeCop0 hop h
  all_goals
    obtain rfl := Decoded.instr.inj h
    simp only [opOf] at hop
    simp only [encode, Instr.unusedBits]
  case h_4 | h_5 | h_30 | h_31 | h_32 => -- J, JAL and COP1 to COP3
    apply eq_jWord <;> simp [opOf, targetOf, field_and_kept, hop]
  all_goals
    apply eq_iWord <;> simp [opOf, rsOf, rtOf, immOf, field_and_kept, field_and_cleared, hop]

theorem and_not_eq_xor_and (w u : Word) : w &&& ~~~u = w ^^^ (w &&& u) := by
  ext j hj
  simp only [BitVec.getElem_and, BitVec.getElem_not, BitVec.getElem_xor]
  cases w[j] <;> simp

theorem xor_and_and_not (w m u : Word) : (w ^^^ (m &&& u)) &&& ~~~u = w &&& ~~~u := by
  ext j hj
  simp only [BitVec.getElem_and, BitVec.getElem_not, BitVec.getElem_xor]
  cases u[j] <;> simp

/-- Settles O2: the changed word has the used bits it had, and a canonical word has no others. -/
theorem unusedFieldsIgnored : Obligations.UnusedFieldsIgnored := by
  intro w m i h
  have hw : w &&& ~~~i.unusedBits = encode i := usedBits_of_decode h
  have hi : encode i &&& ~~~i.unusedBits = encode i := usedBits_of_decode (decodeOfEncode i)
  refine ⟨decode_eq_of_usedBits ?_, fun hcanon => ?_⟩
  · rw [xor_and_and_not, hw, hi]
  · rw [← hw, and_not_eq_xor_and, eq_of_beq hcanon, BitVec.xor_zero]

end Sys2Proof
end

section
/-! SUPPORT. The CPU step (40_cpu_step R152 to R166): when the next transition is one it runs from interrupt sampling in `atFetch`, and an
exception entry is what `Entered` says. -/

namespace Sys2Proof.Machine

/-- A CPU step that comes next is the step from interrupt sampling on, in the state in which it samples (40_cpu_step R152). -/
theorem step_of_cpuNext {s : State} (h : cpuNext s = true) : step s = fetchAndRun (atFetch s) := by
  simp only [cpuNext, Bool.and_eq_true, Bool.not_eq_true', beq_iff_eq] at h
  obtain ⟨⟨hlive, hunit⟩, hturn⟩ := h
  have hc : configOk s = true := by
    simp only [live, Bool.and_eq_true] at hlive
    exact hlive.2
  simp only [step, guarded, hc, if_true, transition, hunit, Bool.false_eq_true, if_false, hturn, takeTurn]
  exact ifEnabled_of_live (s := startTurn s) hlive _

/-! What the step does from there, case by case (40_cpu_step R153, R154). -/

theorem fetchAndRun_of_irq {s : State} (h : irqRequest s = true) : fetchAndRun s = enterException .int s := if_pos h

theorem fetchAndRun_of_fetchFault {s : State} (hirq : irqRequest s = false) (hpc : fetchFault s = true) :
    fetchAndRun s = enterException (.adEL s.pc) s := by
  rw [fetchAndRun, hirq, if_neg Bool.false_ne_true, if_pos hpc]

theorem fetchAndRun_of_word {s s' : State} {w : Word} (hirq : irqRequest s = false) (hpc : fetchFault s = false)
    (hw : memRead s.pc .b32 s = .ok (w, s')) : fetchAndRun s = runDecoded (decode w) s' := by
  simp [fetchAndRun, hirq, hpc, hw]

/-- A CPU step that samples no interrupt, may fetch and finds a word does what the decoded word says: taking the turn changes nothing
that the samples read. -/
theorem step_of_fetch {s s' : State} {w : Word} (h : cpuNext s = true) (hirq : irqRequest s = false)
    (hpc : fetchFault s = false) (hw : memRead s.pc .b32 (atFetch s) = .ok (w, s')) : step s = runDecoded (decode w) s' :=
  (step_of_cpuNext h).trans (fetchAndRun_of_word (s := atFetch s) hirq hpc hw)

theorem runDecoded_instr {i : Instr} {s : State} (h : (s.br.isSome && isBranch i) = false) :
    runDecoded (.instr i) s = exec i s := by
  simp [runDecoded, h]

/-- Settles O5: `step_of_fetch`; the fetch leaves the branch slot alone. -/
theorem stepRunsDecodedInstruction : Obligations.StepRunsDecodedInstruction := by
  intro s s' w i hnext hirq hpc hw hdec hslot
  have hbr : s'.br = s.br := congrArg (·.br) (memRead_frame hw)
  rw [step_of_fetch hnext hirq hpc hw, hdec, runDecoded_instr (by rw [hbr]; exact hslot)]

/-! The fields of CAUSE as MFC0 reads it (10_state R38). -/

theorem causeWord_bd (s : State) : (causeWord s).getLsbD 31 = s.cause.bd := by
  simp only [causeWord, BitVec.getLsbD_append]
  simp

theorem causeWord_excCode (s : State) : (causeWord s).extractLsb' 2 5 = s.cause.excCode :=
  (BitVec.extractLsb'_append_eq_of_le (by decide)).trans BitVec.extractLsb'_append_eq_right

theorem causeWord_ce (s : State) : (causeWord s).extractLsb' 28 2 = s.cause.ce := by
  apply BitVec.eq_of_getLsbD_eq
  intro i hi
  simp only [causeWord, BitVec.getLsbD_extractLsb', BitVec.getLsbD_append]
  interval_cases i <;> simp

/-! The push of the mode stack (60_exceptions R350, R354). -/

theorem pushMode_stack (sr : Word) : (pushMode sr).extractLsb' 0 6 = sr.extractLsb' 0 4 ++ 0#2 := by
  apply BitVec.eq_of_getLsbD_eq
  intro i hi
  simp only [pushMode, BitVec.getLsbD_extractLsb', BitVec.getLsbD_append]
  interval_cases i <;> simp

theorem pushMode_status (sr : Word) : (pushMode sr).extractLsb' 6 26 = sr.extractLsb' 6 26 :=
  (BitVec.extractLsb'_append_eq_of_le (by decide)).trans BitVec.extractLsb'_append_eq_left

/-- The registers after an entry are those after an instruction that writes none: the pending load is committed (60_exceptions R350). -/
theorem excEntry_gpr_eq_retire (x : Exc) (s : State) : (excEntry x s).gpr = (retire {} s).gpr := by
  have hload : committedLoad {} s = s.ld := by cases h : s.ld <;> simp [committedLoad, h]
  rw [excEntry_gpr, retire_gpr, hload]
  rfl

/-- The entry actions are what `Entered` says (60_exceptions R350 to R355). -/
theorem excEntry_entered (x : Exc) (s : State) : Entered x (excCode x).toNat s (excEntry x s) where
  regs q := by
    rw [State.reg, excEntry_gpr_eq_retire]
    exact retire_reg {} s q
  written q hq := by
    rw [excEntry_gpr, RegFile.written_apply _ _ hq]
  slot := rfl
  branch := rfl
  epc := rfl
  bd := causeWord_bd _
  code := by rw [causeWord_excCode]; rfl
  ce z hz := by
    subst hz
    exact causeWord_ce _
  ip := rfl
  bad := by cases x <;> rfl
  mode := pushMode_stack _
  status := pushMode_status _
  depth := rfl
  pc := rfl
  only := rfl
  mem _ := rfl

/-- Where the nesting check lets it proceed, an exception is entered. -/
theorem enterException_entered {s : State} (x : Exc) (h : nestOk s = true) :
    ∃ t, enterException x s = .next t ∧ Entered x (excCode x).toNat s t :=
  ⟨_, enterException_of_nestOk x h, excEntry_entered x s⟩

/-- The fetch checks in the words of 40_cpu_step R153. -/
theorem fetchFault_iff (s : State) :
    fetchFault s = true ↔ s.pc.toNat % 4 ≠ 0 ∨ (s.sr.getLsbD 1 = true ∧ s.pc.getLsbD 31 = true) := by
  simp [fetchFault, misaligned, widthBytes, srKUc]

theorem copUsable_zero_eq_false {s : State} (hk : s.sr.getLsbD 1 = true) (hc : s.sr.getLsbD 28 = false) :
    copUsable 0 s = false := by
  have hk : srKUc s = true := hk
  have hc : srCU s 0 = false := hc
  rw [copUsable, hk, hc]
  rfl

/-- Settles O8: before the fetch by `step_of_cpuNext`, after it by `step_of_fetch`; the fetch leaves SR, the depth and the branch slot
alone, so the checks after it read what was there before. -/
theorem stepsThatRunNoInstruction : Obligations.StepsThatRunNoInstruction := by
  intro s hnext
  refine ⟨fun hirq hnest => ?_, fun hirq hnest hpc => ?_, fun s' w hirq hpc hw => ?_⟩
  · rw [step_of_cpuNext hnext, fetchAndRun_of_irq (s := atFetch s) hirq]
    exact enterException_entered .int hnest
  · have hpc : fetchFault (atFetch s) = true := (fetchFault_iff s).2 hpc
    rw [step_of_cpuNext hnext, fetchAndRun_of_fetchFault (s := atFetch s) hirq hpc]
    exact enterException_entered (.adEL s.pc) hnest
  · rw [step_of_fetch hnext hirq hpc hw]
    have hframe := memRead_frame hw
    have hsr : s'.sr = s.sr := congrArg (·.sr) hframe
    have hbr : s'.br = s.br := congrArg (·.br) hframe
    have hnest' : nestOk s' = nestOk s := by rw [hframe]; rfl
    refine ⟨fun hd hnest => ?_, fun i hd hi hslot => ?_, fun hd => ?_, fun hd hu => ?_, fun hd hk hc hnest => ?_⟩ <;> rw [hd]
    · exact enterException_entered .ri (hnest'.trans hnest)
    · simp [runDecoded, hbr, hslot, hi]
    · rfl
    · exact if_pos (copUsable_zero (by rwa [hsr]))
    · have hcop : copUsable 0 s' = false := copUsable_zero_eq_false (by rw [hsr, hk]) (by rw [hsr, hc])
      simp only [runDecoded, ifUsable, hcop, Bool.false_eq_true, if_false]
      exact enterException_entered (.cpU 0) (hnest'.trans hnest)

end Sys2Proof.Machine
end

section
/-! SUPPORT. How an instruction that is no branch ends, said once: it enters an exception in its own state, or retires and schedules no
branch (40_cpu_step R155, R156). -/

namespace Sys2Proof.Machine

/-- The instruction is still at its own pc, in the delay slot it was in. -/
abbrev SamePlace (s u : State) : Prop := u.pc = s.pc ∧ u.br = s.br

/-- The end of an instruction that is no branch: an exception entry, or the retire of an effect that schedules no branch, after bus
accesses and COP0 writes that leave the place alone. -/
inductive EndsUnbranched (s : State) : State → Prop
  | enters (x : Exc) : EndsUnbranched s (excEntry x s)
  | retires {e : Effect} {u : State} (slot : e.br = none) (place : SamePlace s u) : EndsUnbranched s (retire e u)

theorem memRead_samePlace {a : Word} {w : Width} {s u : State} {v : Word} (h : memRead a w s = .ok (v, u)) : SamePlace s u :=
  ⟨congrArg (·.pc) (memRead_frame h), congrArg (·.br) (memRead_frame h)⟩

theorem memWrite_samePlace {a : Word} {w : Width} {s u : State} {v : Word} (h : memWrite a w v s = .ok u) : SamePlace s u :=
  ⟨congrArg (·.pc) (memWrite_frame h), congrArg (·.br) (memWrite_frame h)⟩

theorem storeBytes_samePlace {a : Word} {bs : List (Nat × Byte)} {r : Word} {s u : State} (h : storeBytes a bs r s = .ok u) :
    SamePlace s u := by
  unfold storeBytes at h
  split at h
  · exact memWrite_samePlace h
  · refine writeEach_preserves (P := SamePlace s) (fun hw hp => ?_) h ⟨rfl, rfl⟩
    obtain ⟨hpc, hbr⟩ := memWrite_samePlace hw
    exact ⟨hpc.trans hp.1, hbr.trans hp.2⟩

theorem cop0Write_samePlace {rd : Reg} {v : Word} {s u : State} (h : cop0Write rd v s = .ok u) : SamePlace s u :=
  ⟨congrArg (·.pc) (cop0Write_frame h), congrArg (·.br) (cop0Write_frame h)⟩

section
variable {s t : State}

theorem endsUnbranched_of_enter {x : Exc} (h : enterException x s = .next t) : EndsUnbranched s t :=
  enterException_next h ▸ .enters x

theorem endsUnbranched_of_retire {e : Effect} {u : State} (hp : SamePlace s u) (h : (.next (retire e u) : Result) = .next t)
    (hb : e.br = none := by rfl) : EndsUnbranched s t :=
  Host.Outcome.next.inj h ▸ .retires hb hp

theorem endsUnbranched_of_retireUnless {o : Bool} {r : Reg} {v : Word} (h : retireUnless o r v s = .next t) :
    EndsUnbranched s t := by
  unfold retireUnless at h
  split at h
  · exact endsUnbranched_of_enter h
  · exact endsUnbranched_of_retire ⟨rfl, rfl⟩ h

theorem endsUnbranched_of_checkHiLo {ok : Bool} {e : Effect} (h : checkHiLo s (afterRead ok (.next (retire e s))) = .next t)
    (hb : e.br = none := by rfl) : EndsUnbranched s t := by
  unfold checkHiLo at h
  split at h
  · simp at h
  · exact endsUnbranched_of_retire ⟨rfl, rfl⟩ (afterRead_next h).2 hb

theorem endsUnbranched_of_loadVia {chk w : Width} {ea a : Word} {rt : Reg} {m : Bool} {f : Word → Word}
    (h : loadVia chk w ea a rt m f s = .next t) : EndsUnbranched s t := by
  unfold loadVia at h
  split at h
  · exact endsUnbranched_of_enter h
  · split at h
    · simp at h
    · split at h
      · simp at h
      · next hr => exact endsUnbranched_of_retire (memRead_samePlace hr) (afterRead_next h).2

theorem endsUnbranched_of_storeVia {chk : Width} {ea : Word} {rt : Reg} {put : State → Except Fault State}
    (hput : ∀ u, put s = .ok u → SamePlace s u) (h : storeVia chk ea rt put s = .next t) : EndsUnbranched s t := by
  unfold storeVia at h
  split at h
  · exact endsUnbranched_of_enter h
  · split at h
    · exact endsUnbranched_of_retire ⟨rfl, rfl⟩ h
    · have h := (afterRead_next h).2
      split at h
      · simp at h
      · next u hu => exact endsUnbranched_of_retire (hput u hu) h

theorem endsUnbranched_of_ifUsable {z : BitVec 2} {run : Result} (hrun : run = .next t → EndsUnbranched s t)
    (h : ifUsable z s run = .next t) : EndsUnbranched s t := by
  unfold ifUsable at h
  split at h
  · exact hrun h
  · exact endsUnbranched_of_enter h

/-- Every instruction that is no branch ends so. -/
theorem exec_endsUnbranched {i : Instr} (hi : isBranch i = false) (h : exec i s = .next t) : EndsUnbranched s t := by
  cases i with
  | j | jal | jr | jalr | beq | bne | blez | bgtz | bltz | bgez | bltzal | bgezal => simp [isBranch] at hi
  | add | sub | addi => exact endsUnbranched_of_retireUnless (afterRead_next h).2
  | lui => exact endsUnbranched_of_retire ⟨rfl, rfl⟩ h
  | mult | multu | div | divu | mthi | mtlo => exact endsUnbranched_of_checkHiLo h
  | lb | lbu | lh | lhu | lw | lwl | lwr => exact endsUnbranched_of_loadVia (afterRead_next h).2
  | sb | sh | sw => exact endsUnbranched_of_storeVia (fun _ => memWrite_samePlace) (afterRead_next h).2
  | swl | swr => exact endsUnbranched_of_storeVia (fun _ => storeBytes_samePlace) (afterRead_next h).2
  | mfc0 rt rd =>
    refine endsUnbranched_of_ifUsable (fun h => ?_) h
    split at h
    · simp at h
    · exact endsUnbranched_of_retire ⟨rfl, rfl⟩ h
  | mtc0 rt rd =>
    refine endsUnbranched_of_ifUsable (fun h => ?_) h
    have h := (afterRead_next h).2
    split at h
    · simp at h
    · next hw => exact endsUnbranched_of_retire (cop0Write_samePlace hw) h
  | rfe =>
    refine endsUnbranched_of_ifUsable (fun h => ?_) h
    exact endsUnbranched_of_retire (u := leaveException s) ⟨rfl, rfl⟩ h
  | cop1 | cop2 | cop3 | lwc0 | lwc1 | lwc2 | lwc3 | swc0 | swc1 | swc2 | swc3 =>
    exact endsUnbranched_of_ifUsable (fun h => by simp at h) h
  | syscall | brk => exact endsUnbranched_of_enter h
  | _ => exact endsUnbranched_of_retire ⟨rfl, rfl⟩ (afterRead_next h).2

end

/-- The handler is at one of the two vectors (60_exceptions R355). -/
theorem excVector_cases (s : State) : excVector s = 0x80000080#32 ∨ excVector s = 0xBFC00180#32 := by
  unfold excVector
  split
  · exact .inr rfl
  · exact .inl rfl

/-- Settles O9: either end of `exec_endsUnbranched` empties the slot; a retire goes to its target, an entry notes the branch. -/
theorem delaySlotGoesToTarget : Obligations.DelaySlotGoesToTarget := by
  intro i s t target hi hbr h
  cases exec_endsUnbranched hi h with
  | enters x =>
    refine ⟨rfl, .inr ⟨?_, ?_, excVector_cases s⟩⟩
    · simp [hbr]
    · rw [causeWord_bd, excEntry_cause, hbr]
      rfl
  | @retires e u slot place =>
    refine ⟨slot, .inl ?_⟩
    rw [retire_pc, nextPc, slot, place.2, hbr]

/-! The load delay (40_cpu_step R158, R164). -/

/-- LW from memory retires with the loaded word in the load slot. -/
theorem exec_lw_memory {s : State} {r base : Reg} {off : BitVec 16} {h : Handler} {a : Nat}
    (hm : memoryAt s.cfg (effAddr base off s) = some (h, a)) (hf : addrFault (effAddr base off s) .b32 s = false)
    (hr : canRead s base = true) (hi : srIsC s = false) :
    exec (.lw r base off) s = .next (retire { ld := some ⟨r, wordAt s.mem a⟩ } (noteCall h s)) := by
  simp [exec, execLw, loadVia, canReadAll, hr, hf, hi, memRead_memory hm]

/-- What can be read depends on the registers, their flags and the policy only (10_state R31). -/
theorem canReadAll_congr {s t : State} (hg : t.gpr = s.gpr) (hc : t.cfg = s.cfg) (rs : List Reg) :
    canReadAll t rs = canReadAll s rs := by
  have hread : canRead t = canRead s := funext fun r => by rw [canRead, canRead, hg, hc]
  rw [canReadAll, canReadAll, hread]

/-- With no load pending, an instruction that writes no register leaves the registers alone. -/
theorem retire_gpr_of_no_load {s : State} {e : Effect} (hl : s.ld = none) (hw : e.wr = none) : (retire e s).gpr = s.gpr := by
  simp [committedLoad, hl, hw, RegFile.apply]

theorem regAfter_written {s : State} {ld : Option RegWrite} {q : Reg} {v : Word} (hq : q ≠ 0) :
    regAfter s (some ⟨q, v⟩) ld q = v := by
  rw [regAfter, if_neg hq, if_pos (by simp)]
  rfl

theorem regAfter_pending {s : State} {wr ld : Option RegWrite} {q : Reg} {v : Word} (hq : q ≠ 0) (hl : s.ld = some ⟨q, v⟩)
    (hwr : names wr q = false) (hld : names ld q = false) : regAfter s wr ld q = v := by
  rw [regAfter, if_neg hq, hwr, hld, hl, if_neg Bool.false_ne_true, if_pos (by simp)]
  rfl

/-- Settles O10: the load only fills the slot, so ADDU reads the old registers; its retire commits the slot. -/
theorem loadDelay : Obligations.LoadDelay := by
  intro s r q d off base h a hm hf hread hi hr hd hdr hl
  obtain ⟨hbase, hsources⟩ : canRead s base = true ∧ canReadAll s [r, q] = true := Bool.and_eq_true_iff.1 hread
  have hload := exec_lw_memory (r := r) hm hf hbase hi
  generalize ht : retire { ld := some ⟨r, wordAt s.mem a⟩ } (noteCall h s) = t at hload
  have hgpr : t.gpr = s.gpr := by
    rw [← ht]
    exact retire_gpr_of_no_load (s := noteCall h s) hl rfl
  have hslot : t.ld = some ⟨r, wordAt s.mem a⟩ := by rw [← ht, retire_ld]
  have hreads : canReadAll t [r, q] = true := (canReadAll_congr hgpr (by rw [← ht]; rfl) _).trans hsources
  have hsum : t.reg r + t.reg q = s.reg r + s.reg q := by simp only [State.reg, hgpr]
  refine ⟨t, _, hload, by rw [exec, execAddu, hreads, afterRead_true, hsum]; rfl, ?_, ?_⟩
  · rw [retire_reg, regAfter_written hd]
  · rw [retire_reg, regAfter_pending hr hslot (by simpa using hdr) rfl]

end Sys2Proof.Machine
end

section
/-! SUPPORT. The agenda (40_cpu_step R150, R151): a transition is a turn of the catch-up or the next turn of the agenda, and a DMA unit
does not depend on what is still on the agenda. -/

namespace Sys2Proof.Machine

theorem step_of_catchingUp {s : State} (hc : configOk s = true) (h : catchingUp s = true) : step s = .next (catchUpTurn s) := by
  simp [step, guarded, transition, hc, h]

theorem step_of_not_catchingUp {s : State} (hc : configOk s = true) (h : catchingUp s = false) :
    step s = takeTurn (nextTurn s) (startTurn s) := by
  simp [step, guarded, transition, hc, h]

theorem catchingUp_iff (s : State) : catchingUp s = true ↔ s.dmaOwed = true ∧ dmaEnabled s = true := by
  rw [catchingUp, Bool.and_eq_true]

theorem dmaOwed_of_catchingUp {s : State} (h : catchingUp s = true) : s.dmaOwed = true := ((catchingUp_iff s).1 h).1

theorem dmaEnabled_of_nextChan {s : State} {n : Chan} (hf : s.faults = []) (hr : s.refused = false) (hn : nextChan s = some n) :
    dmaEnabled s = true := by
  simp [dmaEnabled, hf, hr, hn]

theorem catchingUp_of_not_owed {s : State} (h : s.dmaOwed = false) : catchingUp s = false := by
  rw [catchingUp, h, Bool.false_and]

theorem dmaStep_of_nextChan {s : State} {n : Chan} (h : nextChan s = some n) : dmaStep s = dmaUnit n s := by
  rw [dmaStep, h]

theorem dmaStep_of_no_chan {s : State} (h : nextChan s = none) : dmaStep s = s := by
  rw [dmaStep, h]

theorem nextTurn_of_cons {s : State} {turn : Turn} {rest : List Turn} (h : s.agenda = turn :: rest) : nextTurn s = turn := by
  rw [nextTurn, h]
  rfl

theorem beq_eager_iff {p : Schedule} : (p == .eager) = false ↔ p = .free := by
  cases p <;> decide

/-- A turn of the agenda that is taken leaves the rest of it. -/
theorem startTurn_of_cons {s : State} {turn : Turn} {rest : List Turn} (h : s.agenda = turn :: rest) :
    startTurn s = { s with agenda := rest, dmaOwed := false } := by
  rw [startTurn, h]
  rfl

/-- With nothing owed, the head of the agenda is the transition. -/
theorem step_of_cons {s : State} {turn : Turn} {rest : List Turn} (hc : configOk s = true) (hu : catchingUp s = false)
    (h : s.agenda = turn :: rest) : step s = takeTurn turn { s with agenda := rest, dmaOwed := false } := by
  rw [step_of_not_catchingUp hc hu, nextTurn_of_cons h, startTurn_of_cons h]

/-- A DMA turn with nothing owed and no fault or refusal recorded (65_dma R418). -/
theorem step_of_dma_turn {s t : State} {rest : List Turn} (hc : configOk s = true) (hf : s.faults = []) (hr : s.refused = false)
    (ho : s.dmaOwed = false) (h : s.agenda = .dma :: rest) (ht : t = { s with agenda := rest, dmaOwed := false }) :
    step s = .next (if s.cfg.schedule = .free then dmaStep t else t) := by
  rw [step_of_cons hc (catchingUp_of_not_owed ho) h, ← ht, takeTurn, ifEnabled, ht, hf, hr]
  rfl

/-- A device event does not wait for an owed unit (40_cpu_step R151). -/
theorem step_of_raise {s : State} {l : Line} {rest : List Turn} (hc : configOk s = true) (h : s.agenda = .raise l :: rest) :
    step s = .next (raiseLine l { s with agenda := rest, dmaOwed := catchingUp s }) := by
  cases hu : catchingUp s with
  | false => exact step_of_cons hc hu h
  | true => rw [step_of_catchingUp hc hu, catchUpTurn, h, ← dmaOwed_of_catchingUp hu]

theorem step_of_setReady {s : State} {n : Chan} {b : Bool} {rest : List Turn} (hc : configOk s = true)
    (h : s.agenda = .setReady n b :: rest) :
    step s = .next (setReady n b { s with agenda := rest, dmaOwed := catchingUp s }) := by
  cases hu : catchingUp s with
  | false => exact step_of_cons hc hu h
  | true => rw [step_of_catchingUp hc hu, catchUpTurn, h, ← dmaOwed_of_catchingUp hu]

/-- A change of readiness is that channel's alone (65_dma R402). -/
theorem setReady_get (n m : Chan) (b : Bool) (s : State) :
    (setReady n b s).dmaReady.get m = if n = m then b else s.dmaReady.get m := by
  simp only [setReady, Vector.get_eq_getElem, Vector.getElem_set, Fin.ext_iff]

/-- A turn that is neither a device event nor a DMA turn waits while a unit is owed (40_cpu_step R151). -/
theorem catchUpTurn_of_waiting {s : State} (hl : ∀ l, nextTurn s ≠ .raise l) (hb : ∀ n b, nextTurn s ≠ .setReady n b)
    (hd : nextTurn s ≠ .dma) : catchUpTurn s = owedUnit s := by
  unfold catchUpTurn
  split
  · next ha => exact absurd (nextTurn_of_cons ha) (hl _)
  · next ha => exact absurd (nextTurn_of_cons ha) (hb _ _)
  · next ha => exact absurd (nextTurn_of_cons ha) hd
  · rfl

/-! A DMA unit reads nothing of the agenda. -/

/-- The same machine with another agenda. -/
def setAgenda (turns : List Turn) (s : State) : State := { s with agenda := turns }

section
variable (turns : List Turn) (s : State)

theorem moveWord_setAgenda (n : Chan) (fromRam : Bool) (a : Nat) :
    moveWord n fromRam a (setAgenda turns s) = setAgenda turns (moveWord n fromRam a s) := by
  cases fromRam <;> rfl

theorem moveBlock_setAgenda (n : Chan) (fromRam : Bool) (a0 step : Int) (count i : Nat) :
    moveBlock n fromRam a0 step count i (setAgenda turns s) = setAgenda turns (moveBlock n fromRam a0 step count i s) := by
  induction count generalizing i s with
  | zero => rfl
  | succ k ih => rw [moveBlock, moveWord_setAgenda, ih, moveBlock]

theorem otcBlock_setAgenda (a0 : Int) (count i : Nat) :
    otcBlock a0 count i (setAgenda turns s) = setAgenda turns (otcBlock a0 count i s) := by
  induction count generalizing i s with
  | zero => rfl
  | succ k ih =>
    have write : ∀ a v, dmaRamWrite a v (setAgenda turns s) = setAgenda turns (dmaRamWrite a v s) := fun _ _ => rfl
    simp only [otcBlock, write, ih]

theorem complete_setAgenda (n : Chan) : complete n (setAgenda turns s) = setAgenda turns (complete n s) := by
  rw [complete, complete, apply_ite (setAgenda turns)]
  rfl

theorem manualUnit_setAgenda (n : Chan) : manualUnit n (setAgenda turns s) = setAgenda turns (manualUnit n s) := by
  rw [manualUnit, manualUnit, apply_ite (setAgenda turns), ← complete_setAgenda, ← moveBlock_setAgenda]
  rfl

theorem otcUnit_setAgenda : otcUnit (setAgenda turns s) = setAgenda turns (otcUnit s) := by
  rw [otcUnit, otcUnit, apply_ite (setAgenda turns), ← complete_setAgenda, ← otcBlock_setAgenda]
  rfl

theorem requestUnit_setAgenda (n : Chan) : requestUnit n (setAgenda turns s) = setAgenda turns (requestUnit n s) := by
  simp only [requestUnit, apply_ite (setAgenda turns), ← complete_setAgenda]
  rw [moveWord_setAgenda]
  rfl

theorem linkedUnit_setAgenda (n : Chan) : linkedUnit n (setAgenda turns s) = setAgenda turns (linkedUnit n s) := by
  have tick : dmaTick (setAgenda turns s) = setAgenda turns (dmaTick s) := rfl
  simp only [linkedUnit, apply_ite (setAgenda turns), ← complete_setAgenda, tick, moveBlock_setAgenda]
  rfl

theorem dmaUnit_setAgenda (n : Chan) : dmaUnit n (setAgenda turns s) = setAgenda turns (dmaUnit n s) := by
  have sync : ((setAgenda turns s).chan n).chcr = (s.chan n).chcr := rfl
  rw [dmaUnit, dmaUnit, sync]
  split
  · split
    · exact otcUnit_setAgenda turns s
    · exact manualUnit_setAgenda turns s n
  · exact requestUnit_setAgenda turns s n
  · exact linkedUnit_setAgenda turns s n
  · rfl

end

/-- An owed unit that serves channel n, whatever turn of the agenda it takes with it. -/
theorem owedUnit_setAgenda {s : State} {n : Chan} (turns : List Turn) (hn : nextChan s = some n) (ho : s.dmaOwed = true) :
    owedUnit (setAgenda turns s) = { dmaUnit n s with agenda := turns, dmaOwed := s.cfg.schedule == .eager } := by
  have hn : nextChan (setAgenda turns s) = some n := hn
  have ho : (setAgenda turns s).dmaOwed = true := ho
  rw [owedUnit, dmaStep_of_nextChan hn, dmaUnit_setAgenda, ho, Bool.true_and]
  rfl

/-- Settles O44: device events by `step_of_raise` and `step_of_setReady`; an owed unit by `owedUnit_setAgenda`; what else the agenda
holds by `step_of_cons`. -/
theorem agendaTurns : Obligations.AgendaTurns := by
  intro s l n b x v w r saved rest after eager hc
  refine ⟨fun ha => step_of_raise hc ha, fun ha => ⟨_, step_of_setReady hc ha, rfl, ?_, fun m hm => ?_⟩,
    fun hf hr hn ho => ⟨fun ht => ?_, fun ha => ?_⟩,
    fun hf hr ho ha => ⟨fun hidle => ?_, fun hfree hn => ?_⟩,
    fun hu => ⟨step_of_cons hc hu, step_of_cons hc hu, step_of_cons hc hu, step_of_cons hc hu⟩⟩
  · rw [setReady_get, if_pos rfl]
  · rw [setReady_get, if_neg hm.symm]
  · have hu : catchingUp s = true := (catchingUp_iff s).2 ⟨ho, dmaEnabled_of_nextChan hf hr hn⟩
    have hwait : catchUpTurn s = owedUnit s := by
      apply catchUpTurn_of_waiting
      all_goals intros; intro he; simp [he] at ht
    have hag : (dmaUnit n s).agenda = s.agenda := congrArg (·.agenda) (dmaUnit_frame n s)
    rw [step_of_catchingUp hc hu, hwait]
    exact congrArg _ ((owedUnit_setAgenda s.agenda hn ho).trans (by rw [← hag]))
  · have hu : catchingUp s = true := (catchingUp_iff s).2 ⟨ho, dmaEnabled_of_nextChan hf hr hn⟩
    rw [step_of_catchingUp hc hu, catchUpTurn, ha]
    exact congrArg _ (owedUnit_setAgenda rest hn ho)
  · rw [step_of_dma_turn hc hf hr ho ha rfl]
    rcases hidle with he | hn
    · rw [if_neg fun hfree => Bool.false_ne_true ((beq_eager_iff.2 hfree).symm.trans he)]
    · rw [dmaStep_of_no_chan (s := after) hn, ite_self]
  · rw [step_of_dma_turn hc hf hr ho ha rfl, if_pos (beq_eager_iff.1 hfree)]
    exact congrArg _ (dmaStep_of_nextChan (s := after) hn)

end Sys2Proof.Machine
end

section
/-! SUPPORT. Fairness (40_cpu_step R151, 65_dma R424): while an agent waits, every transition brings its turn nearer. -/

namespace Sys2Proof.Machine

/-! What a transition leaves of the agenda. -/

/-- Introspection writes memory and device registers only (20_memory R108). -/
theorem introspectWrite_frame (x : Word) (w : Width) (v : Word) (s : State) : BusFrame s (introspectWrite x w v s) := by
  unfold introspectWrite
  cases introspectAt s.cfg x w with
  | none => rfl
  | some place =>
    obtain ⟨handler, off⟩ := place
    cases handler with
    | ram | spad | bios | external win => rfl
    | cacheCtl => dsimp only; split <;> rfl
    | irq =>
      dsimp only
      split
      · split <;> rfl
      · rfl
    | dma =>
      dsimp only
      split
      · rfl
      · next r _ =>
        split
        · cases r <;> rfl
        · rfl

/-- No part of an instruction touches the agenda or the note of owed units that the start of the step has made. -/
theorem kept_agenda (turns : List Turn) (cfg : Params) :
    Kept fun s => s.agenda = turns ∧ s.cfg = cfg ∧ s.dmaOwed = (cfg.schedule == .eager || turns.isEmpty) where
  retire _ _ h := h
  exc _ _ h := h
  read hr h := by rw [memRead_frame hr]; exact h
  write _ hw h := by rw [memWrite_frame hw]; exact h
  cop0 hw h := by rw [cop0Write_frame hw]; exact h
  leave _ h := h

/-- After a CPU step DMA units are owed under the eager schedule, and a single one by default (40_cpu_step R150, R151). -/
theorem cpuStep_agenda {s t : State} (h : cpuStep s = .next t) :
    t.agenda = s.agenda ∧ t.dmaOwed = (s.cfg.schedule == .eager || s.agenda.isEmpty) := by
  have h : cpuStep (beginCpu s) = .next t := h
  have hbegin : ∀ u : State, u.agenda = s.agenda ∧ u.cfg = s.cfg ∧ u.dmaOwed = (s.cfg.schedule == .eager || s.agenda.isEmpty) →
      (beginCpu u).agenda = s.agenda ∧ (beginCpu u).cfg = s.cfg ∧
        (beginCpu u).dmaOwed = (s.cfg.schedule == .eager || s.agenda.isEmpty) := by
    rintro u ⟨ha, hc, -⟩
    exact ⟨ha, hc, by rw [beginCpu_dmaOwed, ha, hc]⟩
  obtain ⟨ha, -, ho⟩ := (kept_agenda s.agenda s.cfg).cpuStep hbegin (s := beginCpu s) ⟨rfl, rfl, rfl⟩ h
  exact ⟨ha, ho⟩

/-- A turn takes nothing further from the agenda. -/
theorem takeTurn_agenda {turn : Turn} {s t : State} (h : takeTurn turn s = .next t) : t.agenda = s.agenda := by
  cases turn with
  | cpu => exact (cpuStep_agenda (ifEnabled_next h).2.2).1
  | dma =>
    rw [← Host.Outcome.next.inj (ifEnabled_next h).2.2]
    split
    · exact dmaStep_agenda s
    · rfl
  | raise l | setReady n b | hostReset => exact Host.Outcome.next.inj h ▸ rfl
  | poke x w v => exact Host.Outcome.next.inj h ▸ congrArg (·.agenda) (introspectWrite_frame x w v s)
  | pokeReg r v => exact Host.Outcome.next.inj h ▸ pokeReg_agenda r v s
  | restore snap => rw [(restore_next h).1]

/-- Outside a catch-up a transition takes the head of the agenda. -/
theorem step_agenda_of_not_catchingUp {s t : State} (hu : catchingUp s = false) (h : step s = .next t) :
    t.agenda = s.agenda.tail :=
  takeTurn_agenda ((step_of_not_catchingUp (step_cases h).1 hu).symm.trans h)

/-- A turn of the catch-up takes the head of the agenda, or it serves an owed unit and no device event stood before it. -/
theorem catchUpTurn_cases (s : State) :
    (∃ turn rest, s.agenda = turn :: rest ∧ (catchUpTurn s).agenda = rest) ∨
      (catchUpTurn s = owedUnit s ∧ (∀ l rest, s.agenda ≠ .raise l :: rest) ∧ ∀ n b rest, s.agenda ≠ .setReady n b :: rest) := by
  unfold catchUpTurn
  split
  · next l rest ha => exact .inl ⟨_, _, ha, rfl⟩
  · next n b rest ha => exact .inl ⟨_, _, ha, rfl⟩
  · next rest ha => exact .inl ⟨_, _, ha, owedUnit_agenda _⟩
  · next hl hb _ => exact .inr ⟨rfl, hl, hb⟩

/-- Taking a turn from the agenda outweighs the note of an owed unit. -/
theorem two_mul_length_lt_cons (turn : Turn) (rest : List Turn) (b c : Bool) :
    2 * rest.length + b.toNat < 2 * (turn :: rest).length + c.toNat := by
  have hb := b.toNat_le
  rw [List.length_cons]
  omega

/-! The DMA engine. -/

/-- How long an enabled DMA step can still wait: the agenda, and the CPU step after which a unit is owed. -/
def dmaWait (s : State) : Nat := 2 * s.agenda.length + (!s.dmaOwed).toNat

/-- While a unit is owed and enabled, only a device event comes before it. -/
theorem dmaNext_of_catchingUp {s : State} (hc : configOk s = true) (hu : catchingUp s = true)
    (hl : ∀ l rest, s.agenda ≠ .raise l :: rest) (hb : ∀ n b rest, s.agenda ≠ .setReady n b :: rest) : dmaNext s = true := by
  obtain ⟨ho, he⟩ := (catchingUp_iff s).1 hu
  rw [dmaNext, hc, he, Bool.true_and, Bool.true_and]
  split
  · next ha => exact absurd ha (hl _ _)
  · next ha => exact absurd ha (hb _ _ _)
  · rw [ho, Bool.true_or]
  · exact ho

/-- A transition that is not the DMA step brings an enabled one nearer: it takes a turn from the agenda, or it is the CPU step after
which a unit is owed. -/
theorem dmaWait_step {s t : State} (h : step s = .next t) (he : dmaEnabled s = true) (hn : dmaNext s = false) :
    dmaWait t < dmaWait s := by
  obtain ⟨hc, ⟨hu, rfl⟩ | ⟨hu, ht⟩⟩ := step_cases h
  · rcases catchUpTurn_cases s with ⟨turn, rest, ha, hrest⟩ | ⟨-, hl, hb⟩
    · rw [dmaWait, dmaWait, ha, hrest]
      exact two_mul_length_lt_cons _ _ _ _
    · simp [dmaNext_of_catchingUp hc hu hl hb] at hn
  · have hrest := step_agenda_of_not_catchingUp hu h
    cases ha : s.agenda with
    | nil =>
      have ho : s.dmaOwed = false := by simpa [catchingUp, he] using hu
      rw [nextTurn, ha] at ht
      have howed : t.dmaOwed = true := by simp [(cpuStep_agenda (ifEnabled_next ht).2.2).2, ha]
      simp [dmaWait, hrest, ha, ho, howed]
    | cons turn rest =>
      rw [dmaWait, dmaWait, hrest, ha]
      exact two_mul_length_lt_cons _ _ _ _

/-! The CPU, under the free schedule. -/

/-- How long a CPU step can still wait: the agenda, and a unit owed before it. -/
def cpuWait (s : State) : Nat := 2 * s.agenda.length + s.dmaOwed.toNat

/-- A transition that is not the CPU step brings it nearer: it takes a turn from the agenda, or it is the single owed unit. -/
theorem cpuWait_step {s t : State} (h : step s = .next t) (hfree : s.cfg.schedule = .free) (hn : cpuNext s = false) :
    cpuWait t < cpuWait s := by
  obtain ⟨hc, ⟨hu, rfl⟩ | ⟨hu, ht⟩⟩ := step_cases h
  · rcases catchUpTurn_cases s with ⟨turn, rest, ha, hrest⟩ | ⟨hunit, -, -⟩
    · rw [cpuWait, cpuWait, ha, hrest]
      exact two_mul_length_lt_cons _ _ _ _
    · simp [cpuWait, hunit, hfree, dmaOwed_of_catchingUp hu]
  · have hrest := step_agenda_of_not_catchingUp hu h
    cases ha : s.agenda with
    | nil =>
      rw [nextTurn, ha] at ht
      obtain ⟨hf, hr, -⟩ := ifEnabled_next ht
      rw [startTurn_faults] at hf
      rw [startTurn_refused] at hr
      simp [cpuNext, live, nextTurn, hc, hu, ha, hf, hr] at hn
    | cons turn rest =>
      rw [cpuWait, cpuWait, hrest, ha]
      exact two_mul_length_lt_cons _ _ _ _

/-- A measure that decreases at every transition up to an event makes the event come. -/
theorem exists_of_wait_decreases {r : Nat → State} {event : State → Bool} (wait : State → Nat) (k : Nat)
    (h : ∀ j, k ≤ j → event (r j) = false → wait (r (j + 1)) < wait (r j)) : ∃ j, k ≤ j ∧ event (r j) = true := by
  obtain ⟨i, hi⟩ := WellFounded.not_rel_apply_succ (r := (· < ·)) fun i => wait (r (k + i))
  refine ⟨k + i, Nat.le_add_right k i, ?_⟩
  by_contra hev
  exact hi (h _ (Nat.le_add_right k i) (by simpa using hev))

theorem run_cfg {r : Nat → State} (h : Run r) (k : Nat) : (r k).cfg = (r 0).cfg := by
  induction k with
  | zero => rfl
  | succ k ih => exact (step_cfg (h k)).trans ih

/-- Settles O45: neither agent waits for ever, by `dmaWait_step` and `cpuWait_step`. -/
theorem runsAreFair : Obligations.RunsAreFair := by
  intro r hrun
  refine ⟨fun k henabled => ?_, fun hfree k => ?_⟩
  · exact exists_of_wait_decreases dmaWait k fun j hj => dmaWait_step (hrun j) (henabled j hj)
  · exact exists_of_wait_decreases cpuWait k fun j _ => cpuWait_step (hrun j) (by rw [run_cfg hrun j, hfree])

end Sys2Proof.Machine
end

section
/-! SUPPORT. The cycle count never falls (20_memory R96, R98, 10_state R59): not in a CPU step, not in a DMA unit. -/

namespace Sys2Proof.Machine

/-! Bus writes. -/

theorem writeChcr_cycles (n : Chan) (v : Word) (s : State) : (writeChcr n v s).cycles = s.cycles := by
  unfold writeChcr
  dsimp only
  split
  · rfl
  · split
    · rfl
    · split <;> rfl

theorem dmaRegStore_cycles (r : DmaReg) (v : Word) (s : State) : (dmaRegStore r v s).cycles = s.cycles := by
  cases r with
  | chcr n => exact writeChcr_cycles n v s
  | dicr =>
    simp only [dmaRegStore, writeDicr]
    split <;> rfl
  | _ => rfl

theorem irqStore_cycles (off : Nat) (v : Word) (s : State) : (irqStore off v s).cycles = s.cycles := by
  unfold irqStore
  split <;> rfl

/-- A core handler's write takes no cycles of its own: the bus adds them (20_memory R97). -/
theorem coreWrite_cycles {h : Handler} {off : Nat} {w : Width} {v : Word} {s t : State} (ht : coreWrite h off w v s = .done t) :
    t.cycles = s.cycles := by
  cases h with
  | ram | spad | bios => exact WriteReply.done.inj ht ▸ rfl
  | irq =>
    cases w with
    | b8 => simp [coreWrite, irqWrite] at ht
    | b16 =>
      rw [← WriteReply.done.inj ht]
      split
      · exact irqStore_cycles _ _ _
      · rfl
    | b32 => exact WriteReply.done.inj ht ▸ irqStore_cycles _ _ _
  | dma =>
    simp only [coreWrite, dmaWrite] at ht
    split at ht
    · simp at ht
    · split at ht
      · exact WriteReply.done.inj ht ▸ dmaRegStore_cycles _ _ _
      · simp at ht
  | cacheCtl =>
    simp only [coreWrite] at ht
    split at ht
    · exact WriteReply.done.inj ht ▸ rfl
    · simp at ht
  | external win => simp [coreWrite] at ht

theorem noteCall_cycles_le (h : Handler) (s : State) : s.cycles ≤ (noteCall h s).cycles := Nat.le_add_right _ _

theorem memRead_cycles_le {a : Word} {w : Width} {s t : State} {v : Word} (h : memRead a w s = .ok (v, t)) :
    s.cycles ≤ t.cycles := by
  rcases memRead_ok h with rfl | ⟨hd, rfl⟩ | ⟨win, off, rfl⟩
  · exact Nat.le_refl _
  · exact noteCall_cycles_le hd s
  · exact noteCall_cycles_le (.external win) (emit (.busRead win.id off w) (noteDraw s))

theorem memWrite_cycles_le {a : Word} {w : Width} {s t : State} {v : Word} (h : memWrite a w v s = .ok t) :
    s.cycles ≤ t.cycles := by
  rcases memWrite_ok h with rfl | ⟨win, ev, rfl⟩ | ⟨e, u, -, hu, rfl⟩
  · exact Nat.le_refl _
  · exact noteCall_cycles_le (.external win) (emit ev s)
  · exact coreWrite_cycles hu ▸ noteCall_cycles_le e.handler u

theorem kept_cycles (n : Nat) : Kept fun s => n ≤ s.cycles where
  retire _ _ h := h
  exc _ _ h := h
  read hr h := h.trans (memRead_cycles_le hr)
  write _ hw h := h.trans (memWrite_cycles_le hw)
  cop0 hw h := by rw [cop0Write_frame hw]; exact h
  leave _ h := h

theorem cpuStep_cycles_le {s t : State} (h : cpuStep s = .next t) : s.cycles ≤ t.cycles :=
  (kept_cycles s.cycles).cpuStep (fun _ hs => hs) (Nat.le_refl _) h

/-! DMA units. -/

theorem moveWord_cycles_le (n : Chan) (fromRam : Bool) (a : Nat) (s : State) : s.cycles ≤ (moveWord n fromRam a s).cycles := by
  cases fromRam <;> exact Nat.le_add_right _ _

theorem moveBlock_cycles_le (n : Chan) (fromRam : Bool) (a0 step : Int) (count i : Nat) (s : State) :
    s.cycles ≤ (moveBlock n fromRam a0 step count i s).cycles := by
  induction count generalizing i s with
  | zero => exact Nat.le_refl _
  | succ k ih => exact (moveWord_cycles_le n fromRam _ s).trans (ih _ _)

theorem otcBlock_cycles_le (a0 : Int) (count i : Nat) (s : State) : s.cycles ≤ (otcBlock a0 count i s).cycles := by
  induction count generalizing i s with
  | zero => exact Nat.le_refl _
  | succ k ih => exact Nat.le_trans (Nat.le_add_right s.cycles _) (ih (i + 1) (dmaRamWrite _ _ s))

theorem complete_cycles (n : Chan) (s : State) : (complete n s).cycles = s.cycles := by
  unfold complete
  dsimp only
  split <;> rfl

theorem le_complete_cycles {m : Nat} {s : State} (n : Chan) (h : m ≤ s.cycles) : m ≤ (complete n s).cycles :=
  h.trans_eq (complete_cycles n s).symm

theorem dmaUnit_cycles_le (n : Chan) (s : State) : s.cycles ≤ (dmaUnit n s).cycles := by
  unfold dmaUnit
  split
  · split
    · unfold otcUnit
      dsimp only
      split
      · exact le_complete_cycles 6 (otcBlock_cycles_le _ _ _ (clearTrigger 6 s))
      · exact Nat.le_refl _
    · unfold manualUnit
      dsimp only
      split
      · exact le_complete_cycles n (moveBlock_cycles_le _ _ _ _ _ _ (clearTrigger n s))
      · exact Nat.le_refl _
  · unfold requestUnit
    dsimp only
    split
    · exact Nat.le_refl _
    · split
      · exact Nat.le_refl _
      · split
        · exact le_complete_cycles n (moveWord_cycles_le _ _ _ s)
        · exact moveWord_cycles_le _ _ _ s
  · unfold linkedUnit
    dsimp only
    have header : s.cycles ≤ (dmaTick s).cycles := Nat.le_add_right _ _
    have node := header.trans (moveBlock_cycles_le n true (s.chan n).madr.toNat 4
      (headerCount (readMem s.mem (s.chan n).madr.toNat .b32)) 1 (dmaTick s))
    split
    · exact Nat.le_refl _
    · split
      · exact Nat.le_refl _
      · split
        · exact header
        · split
          · exact le_complete_cycles n node
          · split <;> exact node
  · exact Nat.le_refl _

theorem dmaStep_cycles_le (s : State) : s.cycles ≤ (dmaStep s).cycles := by
  unfold dmaStep
  split
  · exact Nat.le_refl _
  · exact dmaUnit_cycles_le _ _

end Sys2Proof.Machine
end

section
/-! SUPPORT. The host entry step() (40_cpu_step R150): its catch-up is the transitions that follow its CPU step. -/

namespace Sys2Proof.Machine

/-! Several transitions. -/

theorem stepN_succ {k : Nat} {s t : State} (h : step s = .next t) : stepN (k + 1) s = stepN k t := by
  rw [stepN, h]

theorem step_of_stepN_succ {k : Nat} {s u : State} (h : stepN (k + 1) s = .next u) : ∃ t, step s = .next t := by
  rw [stepN] at h
  cases hs : step s with
  | next t => exact ⟨t, rfl⟩
  | fault f | refused r => simp [hs] at h

/-- After `k` transitions a DMA step is enabled. -/
abbrev EnabledAfter (k : Nat) (s : State) : Prop := ∃ u, stepN k s = .next u ∧ dmaEnabled u = true

theorem enabledAfter_zero {s : State} : EnabledAfter 0 s ↔ dmaEnabled s = true := by
  simp [EnabledAfter, stepN]

theorem enabledAfter_succ {k : Nat} {s t : State} (h : step s = .next t) : EnabledAfter (k + 1) s ↔ EnabledAfter k t := by
  rw [EnabledAfter, stepN_succ h]

/-! The catch-up of the eager schedule. -/

theorem dmaStep_dmaOwed (s : State) : (dmaStep s).dmaOwed = s.dmaOwed := by rw [dmaStep_frame s]

/-- Under the eager schedule an owed unit leaves the next one owed (40_cpu_step R150). -/
theorem owedUnit_of_eager {s : State} (h : s.cfg.schedule = .eager) : owedUnit s = dmaStep s := by
  have hkeep : (s.dmaOwed && s.cfg.schedule == .eager) = (dmaStep s).dmaOwed := by
    rw [h, dmaStep_dmaOwed, beq_self_eq_true, Bool.and_true]
  rw [owedUnit, hkeep]

/-- A state in which step()'s catch-up may go on: units are owed, and no turn of the agenda comes between them. -/
structure Owing (s : State) : Prop where
  inv    : Inv s
  empty  : s.agenda = []
  owed   : s.dmaOwed = true
  eager  : s.cfg.schedule = .eager

section
variable {s : State} (h : Owing s)
include h

/-- There a transition is one DMA step. -/
theorem Owing.step (he : dmaEnabled s = true) : step s = .next (dmaStep s) := by
  rw [step_of_catchingUp h.inv.config ((catchingUp_iff s).2 ⟨h.owed, he⟩), catchUpTurn, h.empty]
  exact congrArg _ (owedUnit_of_eager h.eager)

theorem Owing.dmaStep : Owing (dmaStep s) where
  inv := h.inv.dmaStep
  empty := (dmaStep_agenda s).trans h.empty
  owed := (dmaStep_dmaOwed s).trans h.owed
  eager := by rw [dmaStep_cfg, h.eager]

end

theorem catchUp_of_idle {fuel : Nat} {s : State} (he : dmaEnabled s = false) : catchUp fuel s = some s := by
  cases fuel <;> simp [catchUp, he]

theorem catchUp_zero_of_enabled {s : State} (he : dmaEnabled s = true) : catchUp 0 s = none := by
  rw [catchUp, if_pos he]

theorem catchUp_succ {fuel : Nat} {s : State} (he : dmaEnabled s = true) : catchUp (fuel + 1) s = catchUp fuel (dmaStep s) := by
  rw [catchUp, if_pos he]

/-- A catch-up answers nothing exactly when a DMA step is still enabled after as many units as its bound. -/
theorem Owing.catchUp_eq_none {s : State} (h : Owing s) (fuel : Nat) :
    catchUp fuel s = none ↔ ∀ k, k ≤ fuel → EnabledAfter k s := by
  induction fuel generalizing s with
  | zero => simp [catchUp, enabledAfter_zero]
  | succ fuel ih =>
    cases he : dmaEnabled s with
    | false =>
      rw [catchUp_of_idle he]
      simp only [reduceCtorEq, false_iff]
      exact fun hall => by simp [enabledAfter_zero.1 (hall 0 (Nat.zero_le _))] at he
    | true =>
      rw [catchUp_succ he, ih h.dmaStep]
      refine ⟨fun hall k hk => ?_, fun hall k hk => (enabledAfter_succ (h.step he)).1 (hall (k + 1) (by omega))⟩
      cases k with
      | zero => exact enabledAfter_zero.2 he
      | succ k => exact (enabledAfter_succ (h.step he)).2 (hall k (by omega))

/-- A catch-up that answers has taken units, no more than its bound, until none was enabled. -/
theorem Owing.catchUp_eq_some {s u : State} (h : Owing s) {fuel : Nat} (hu : catchUp fuel s = some u) :
    dmaEnabled u = false ∧ ∃ k, k ≤ fuel ∧ stepN k s = .next u := by
  induction fuel generalizing s with
  | zero =>
    cases he : dmaEnabled s with
    | false => exact Option.some.inj ((catchUp_of_idle he).symm.trans hu) ▸ ⟨he, 0, Nat.le_refl _, rfl⟩
    | true => simp [catchUp_zero_of_enabled he] at hu
  | succ fuel ih =>
    cases he : dmaEnabled s with
    | false => exact Option.some.inj ((catchUp_of_idle he).symm.trans hu) ▸ ⟨he, 0, Nat.zero_le _, rfl⟩
    | true =>
      obtain ⟨hidle, k, hk, hrun⟩ := ih h.dmaStep ((catchUp_succ he).symm.trans hu)
      exact ⟨hidle, k + 1, Nat.succ_le_succ hk, (stepN_succ (h.step he)).trans hrun⟩

/-- Units that are needed and within the bound are taken. -/
theorem Owing.catchUp_of_stepN {s t : State} (h : Owing s) {k fuel : Nat} (hk : k ≤ fuel) (ht : stepN k s = .next t)
    (hidle : dmaEnabled t = false) (hall : ∀ j, j < k → EnabledAfter j s) : catchUp fuel s = some t := by
  induction k generalizing s fuel with
  | zero => exact Host.Outcome.next.inj ht ▸ catchUp_of_idle (Host.Outcome.next.inj ht ▸ hidle)
  | succ k ih =>
    have he : dmaEnabled s = true := enabledAfter_zero.1 (hall 0 (Nat.succ_pos k))
    obtain ⟨fuel, rfl⟩ : ∃ m, fuel = m + 1 := ⟨fuel - 1, by omega⟩
    rw [catchUp_succ he]
    exact ih h.dmaStep (Nat.le_of_succ_le_succ hk) ((stepN_succ (h.step he)).symm.trans ht) fun j hj =>
      (enabledAfter_succ (h.step he)).1 (hall (j + 1) (Nat.succ_lt_succ hj))

theorem catchUp_cycles_le {fuel : Nat} {s u : State} (h : catchUp fuel s = some u) : s.cycles ≤ u.cycles := by
  induction fuel generalizing s with
  | zero =>
    cases he : dmaEnabled s with
    | false => exact Option.some.inj ((catchUp_of_idle he).symm.trans h) ▸ Nat.le_refl _
    | true => simp [catchUp_zero_of_enabled he] at h
  | succ fuel ih =>
    cases he : dmaEnabled s with
    | false => exact Option.some.inj ((catchUp_of_idle he).symm.trans h) ▸ Nat.le_refl _
    | true => exact (dmaStep_cycles_le s).trans (ih ((catchUp_succ he).symm.trans h))

/-! step() itself. -/

/-- A state between two host entries: nothing on the agenda, nothing owed. -/
structure AtHost (s : State) : Prop where
  inv    : Inv s
  empty  : s.agenda = []
  unowed : s.dmaOwed = false

/-- The catch-up that follows the CPU step: none under the free schedule. -/
def afterCpu (fuel : Nat) (s t : State) : Option State := if s.cfg.schedule = .eager then catchUp fuel t else some t

theorem afterCpu_of_eager {fuel : Nat} {s t : State} (h : s.cfg.schedule = .eager) : afterCpu fuel s t = catchUp fuel t :=
  if_pos h

theorem afterCpu_of_free {fuel : Nat} {s t : State} (h : s.cfg.schedule = .free) : afterCpu fuel s t = some t :=
  if_neg (by simp [h])

theorem schedule_of_afterCpu_eq_none {fuel : Nat} {s t : State} (h : afterCpu fuel s t = none) : s.cfg.schedule = .eager := by
  cases hs : s.cfg.schedule with
  | eager => rfl
  | free => simp [afterCpu_of_free hs] at h

section
variable {s : State} (h : AtHost s)
include h

/-- From there the transition is the CPU step. -/
theorem AtHost.step : step s = ifEnabled s (cpuStep s) := by
  have hstart : startTurn s = s := by
    rw [startTurn, h.empty, List.tail_nil, ← h.empty, ← h.unowed]
  rw [step_of_not_catchingUp h.inv.config (catchingUp_of_not_owed h.unowed), hstart, nextTurn, h.empty]
  rfl

theorem AtHost.hostStep_of_fault {f : Fault} (fuel : Nat) (hs : Machine.step s = .fault f) :
    hostStep fuel s = some (.fault f) := by
  rw [hostStep, if_pos h.inv.config, ← h.step, hs]

theorem AtHost.hostStep_of_refused {r : Refusal} (fuel : Nat) (hs : Machine.step s = .refused r) :
    hostStep fuel s = some (.refused r) := by
  rw [hostStep, if_pos h.inv.config, ← h.step, hs]

theorem AtHost.hostStep_of_next {t : State} (fuel : Nat) (hs : Machine.step s = .next t) :
    hostStep fuel s = (afterCpu fuel s t).map fun u => .next ({ u with dmaOwed := false }, u.cycles - s.cycles) := by
  rw [hostStep, if_pos h.inv.config, ← h.step, hs]
  rfl

/-- step() stops with a fault exactly as the transition does. -/
theorem AtHost.hostStep_eq_fault_iff (fuel : Nat) (f : Fault) :
    hostStep fuel s = some (.fault f) ↔ Machine.step s = .fault f := by
  cases hs : Machine.step s with
  | fault g => simp [h.hostStep_of_fault fuel hs]
  | refused r => simp [h.hostStep_of_refused fuel hs]
  | next t => simp [h.hostStep_of_next fuel hs]

theorem AtHost.hostStep_eq_refused_iff (fuel : Nat) (r : Refusal) :
    hostStep fuel s = some (.refused r) ↔ Machine.step s = .refused r := by
  cases hs : Machine.step s with
  | fault f => simp [h.hostStep_of_fault fuel hs]
  | refused q => simp [h.hostStep_of_refused fuel hs]
  | next t => simp [h.hostStep_of_next fuel hs]

/-- step() answers nothing exactly when its CPU step leaves a catch-up that answers nothing. -/
theorem AtHost.hostStep_eq_none_iff (fuel : Nat) :
    hostStep fuel s = none ↔ ∃ t, Machine.step s = .next t ∧ afterCpu fuel s t = none := by
  cases hs : Machine.step s with
  | fault f => simp [h.hostStep_of_fault fuel hs]
  | refused r => simp [h.hostStep_of_refused fuel hs]
  | next t => simp [h.hostStep_of_next fuel hs]

/-- What step() answers otherwise: the state its catch-up ends in, and the cycles since. -/
theorem AtHost.hostStep_eq_next {fuel n : Nat} {u : State} (hu : hostStep fuel s = some (.next (u, n))) :
    ∃ t v, Machine.step s = .next t ∧ afterCpu fuel s t = some v ∧ u = { v with dmaOwed := false } ∧
      n = v.cycles - s.cycles := by
  cases hs : Machine.step s with
  | fault f => simp [h.hostStep_of_fault fuel hs] at hu
  | refused r => simp [h.hostStep_of_refused fuel hs] at hu
  | next t =>
    rw [h.hostStep_of_next fuel hs, Option.map_eq_some_iff] at hu
    obtain ⟨v, hv, heq⟩ := hu
    obtain ⟨rfl, rfl⟩ := Prod.mk.inj (Host.Outcome.next.inj heq)
    exact ⟨t, v, rfl, hv, rfl, rfl⟩

theorem AtHost.cpuStep {t : State} (hs : Machine.step s = .next t) : Machine.cpuStep s = .next t :=
  (ifEnabled_next (h.step.symm.trans hs)).2.2

/-- The CPU step of the eager schedule leaves its catch-up owed. -/
theorem AtHost.owing {t : State} (hs : Machine.step s = .next t) (he : s.cfg.schedule = .eager) : Owing t where
  inv := h.inv.step hs
  empty := (cpuStep_agenda (h.cpuStep hs)).1.trans h.empty
  owed := by rw [(cpuStep_agenda (h.cpuStep hs)).2, he]; rfl
  eager := by rw [step_cfg hs, he]

theorem AtHost.afterCpu_cycles_le {t u : State} {fuel : Nat} (hs : Machine.step s = .next t)
    (hu : afterCpu fuel s t = some u) : s.cycles ≤ u.cycles := by
  refine (cpuStep_cycles_le (h.cpuStep hs)).trans ?_
  unfold afterCpu at hu
  split at hu
  · exact catchUp_cycles_le hu
  · exact Option.some.inj hu ▸ Nat.le_refl _

end

/-- Settles O46: step() stops or goes on as the transition does (`AtHost.hostStep_of_next`), and its catch-up is the transitions that
follow (`Owing.catchUp_eq_none`, `Owing.catchUp_eq_some`, `Owing.catchUp_of_stepN`). -/
theorem hostStepIsTransitions : Obligations.HostStepIsTransitions := by
  intro fuel s hinv hempty hunowed
  have h : AtHost s := ⟨hinv, hempty, hunowed⟩
  refine ⟨h.hostStep_eq_fault_iff fuel, h.hostStep_eq_refused_iff fuel, fun t hfree hs => ?_,
    fun k u heager hk hrun hidle hall => ?_, ?_, fun u n hu => ?_⟩
  · rw [h.hostStep_of_next fuel hs, afterCpu_of_free hfree]
    rfl
  · obtain ⟨t, hs⟩ := step_of_stepN_succ hrun
    rw [stepN_succ hs] at hrun
    have hcatch := (h.owing hs heager).catchUp_of_stepN hk hrun hidle fun j hj => (enabledAfter_succ hs).1 (hall j hj)
    rw [h.hostStep_of_next fuel hs, afterCpu_of_eager heager, hcatch]
    rfl
  · rw [h.hostStep_eq_none_iff]
    constructor
    · rintro ⟨t, hs, hnone⟩
      have heager : s.cfg.schedule = .eager := schedule_of_afterCpu_eq_none hnone
      rw [afterCpu_of_eager heager, (h.owing hs heager).catchUp_eq_none] at hnone
      exact ⟨heager, fun k hk => (enabledAfter_succ hs).2 (hnone k hk)⟩
    · rintro ⟨heager, hall⟩
      obtain ⟨t, hs, -⟩ := hall 0 (Nat.zero_le _)
      obtain ⟨t, hs⟩ := step_of_stepN_succ hs
      refine ⟨t, hs, ?_⟩
      rw [afterCpu_of_eager heager, (h.owing hs heager).catchUp_eq_none]
      exact fun k hk => (enabledAfter_succ hs).1 (hall k hk)
  · obtain ⟨t, v, hs, hv, rfl, rfl⟩ := h.hostStep_eq_next hu
    refine ⟨Nat.add_sub_cancel' (h.afterCpu_cycles_le hs hv), fun hfree => ?_, fun heager => ?_⟩
    · rw [afterCpu_of_free hfree, Option.some.injEq] at hv
      exact ⟨t, hs, by rw [hv]⟩
    · rw [afterCpu_of_eager heager] at hv
      obtain ⟨hidle, k, hk, hrun⟩ := (h.owing hs heager).catchUp_eq_some hv
      exact ⟨hidle, k, v, hk, (stepN_succ hs).trans hrun, rfl⟩

end Sys2Proof.Machine
end

section
/-! SUPPORT. The arithmetic family (41_alu): every meaning reads its sources and then writes one register, ADD, SUB and ADDI unless
the exact result leaves the signed range. Said once here; each statement is then its words and its meanings, row by row. -/

namespace Sys2Proof.Machine

/-- An instruction that reads registers and then writes one completes with that write. -/
theorem completes_of_read {i : Instr} {sources : List Reg} {r : Reg} {v : Word} {s : State}
    (h : exec i s = afterRead (canReadAll s sources) (retireWith r v s)) (hread : canReadAll s sources = true) :
    Completes i { wr := some ⟨r, v⟩ } s :=
  completes_of_retire (by rw [h, hread]; rfl)

/-- An instruction that reads registers and then writes one unless `x` is out of the signed range (41_alu R181): in the range it
completes with that write, outside it Ov is entered. -/
theorem completes_or_takes_ov {i : Instr} {sources : List Reg} {r : Reg} {v : Word} {x : Int} {s : State}
    (h : exec i s = afterRead (canReadAll s sources) (retireUnless (outOfRange x) r v s)) (hread : canReadAll s sources = true) :
    (-(2 ^ 31) ≤ x ∧ x ≤ 2 ^ 31 - 1 → Completes i { wr := some ⟨r, v⟩ } s) ∧
    (¬(-(2 ^ 31) ≤ x ∧ x ≤ 2 ^ 31 - 1) → nestOk s = true → Takes .ov 12 i s) := by
  rw [← outOfRange_eq_false, Bool.not_eq_false]
  rw [hread, afterRead_true, retireUnless] at h
  refine ⟨fun hfits => completes_of_retire ?_, fun hover hnest => ?_⟩
  · rw [h, hfits]
    rfl
  · rw [Takes, h, hover]
    exact enterException_entered .ov hnest

/-- Settles O4: the decoder run on the eleven words. -/
theorem exampleWordsDecode : Obligations.ExampleWordsDecode := by
  unfold Obligations.ExampleWordsDecode
  decide

/-- Settles O12: each meaning is its reads and then its write; the comparisons write the 0 or 1 of `boolWord`. -/
theorem aluRegisterResults : Obligations.AluRegisterResults := by
  intro s rd rs rt sh a b hread row hrow
  refine ⟨?_, completes_of_read ?_ hread⟩ <;> revert row <;> simp only [List.forall_mem_cons]
  · simp [decode, decodeSpecial]
  · exact ⟨rfl, rfl, rfl, rfl, rfl, rfl, by rw [← boolWord_ltSigned]; rfl, by rw [← boolWord_ltUnsigned]; rfl, List.forall_mem_nil _⟩

/-- Settles O13: each meaning is its reads and then its write, unless the exact result is out of range. -/
theorem aluTrappingResults : Obligations.AluTrappingResults := by
  intro s rd rs rt sh imm a b m
  refine ⟨by simp [decode, decodeSpecial], by simp [decode, decodeSpecial], by simp [decode], fun row hrow hread => ?_⟩
  refine completes_or_takes_ov ?_ hread
  revert row
  simp only [List.forall_mem_cons]
  exact ⟨fun _ => rfl, fun _ => rfl, fun _ => rfl, List.forall_mem_nil _⟩

/-- Settles O14: each meaning is its reads and then its write; LUI reads nothing. -/
theorem aluImmediateResults : Obligations.AluImmediateResults := by
  intro s rt rs imm a m z row hrow
  refine ⟨?_, completes_of_read ?_⟩ <;> revert row <;> simp only [List.forall_mem_cons]
  · simp [decode]
  · exact ⟨rfl, by rw [← boolWord_ltSigned]; rfl, by rw [← boolWord_ltUnsigned]; rfl, rfl, rfl, rfl, rfl, List.forall_mem_nil _⟩

/-- Settles O15: each meaning is its reads and then its write; the arithmetic shifts are divisions by `sshiftRight_eq_div`, and the
variable amount is `varShamt_toNat`. -/
theorem shiftResults : Obligations.ShiftResults := by
  intro s rd rt rs sh b n row hrow
  refine ⟨?_, completes_of_read ?_⟩ <;> revert row <;> simp only [List.forall_mem_cons]
  · simp [decode, decodeSpecial]
  · simp only [n, ← varShamt_toNat, ← sshiftRight_eq_div]
    exact ⟨rfl, rfl, rfl, rfl, rfl, rfl, List.forall_mem_nil _⟩

end Sys2Proof.Machine
end

section
/-! SUPPORT. Multiply, divide and moves of hi and lo (42_muldiv): a writer of hi or lo checks HiLoHazard, reads its sources and retires.
Said once here, with the arithmetic of the product and the quotient; each statement is then its meanings and their values. -/

namespace Sys2Proof.Machine

/-- How an instruction that writes hi or lo runs (42_muldiv R232 to R235, R238, R239, R244). -/
def runHiLoWrite (sources : List Reg) (e : Effect) (s : State) : Result :=
  checkHiLo s (afterRead (canReadAll s sources) (.next (retire e s)))

theorem runHiLoWrite_of_no_hazard {sources : List Reg} {s : State} (hz : s.hiloAge = 0 ∨ s.cfg.hiloHazard = .ignore)
    (hread : canReadAll s sources = true) (e : Effect) : runHiLoWrite sources e s = .next (retire e s) := by
  rw [runHiLoWrite, checkHiLo_of_no_hazard hz, hread, afterRead_true]

theorem runHiLoWrite_of_hazard {s : State} (hage : 0 < s.hiloAge.val) (hp : s.cfg.hiloHazard = .fault) (sources : List Reg)
    (e : Effect) : runHiLoWrite sources e s = .fault .hiLoHazard := by
  simp [runHiLoWrite, checkHiLo, hiLoHazard, hage, hp]

/-- Without the hazard, a writer of hi or lo whose sources can be read completes with its effect. -/
theorem completes_of_hiLoWrite {i : Instr} {sources : List Reg} {e : Effect} {s : State}
    (hz : s.hiloAge = 0 ∨ s.cfg.hiloHazard = .ignore) (hread : canReadAll s sources = true)
    (h : exec i s = runHiLoWrite sources e s) : Completes i e s :=
  completes_of_retire (h.trans (runHiLoWrite_of_no_hazard hz hread e))

/-! The product (42_muldiv R232, R233). -/

theorem toInt_product (a b : Word) :
    (prodHi (a.toInt * b.toInt) ++ prodLo (a.toInt * b.toInt) : BitVec 64).toInt = a.toInt * b.toInt := by
  have ge := BitVec.le_toInt_mul_toInt (x := a) (y := b)
  have le := BitVec.toInt_mul_toInt_le (x := a) (y := b)
  rw [prodHi_append_prodLo, BitVec.toInt_ofInt_eq_self] <;> omega

theorem toNat_product (a b : Word) :
    (prodHi (a.toNat * b.toNat) ++ prodLo (a.toNat * b.toNat) : BitVec 64).toNat = a.toNat * b.toNat := by
  rw [prodHi_append_prodLo, ← Nat.cast_mul, BitVec.ofInt_natCast, BitVec.toNat_ofNat,
    Nat.mod_eq_of_lt BitVec.toNat_mul_toNat_lt]

/-! The quotient and the remainder (42_muldiv R231, R234, R235). -/

theorem divIsCorner_iff (n d : Word) : divIsCorner n d = true ↔ d = 0 ∨ (n = 0x80000000#32 ∧ d = 0xFFFFFFFF#32) := by
  simp [divIsCorner]

theorem divSigned_of_corner {n d : Word} (h : d = 0 ∨ (n = 0x80000000#32 ∧ d = 0xFFFFFFFF#32)) (c : DivCorner) :
    divSigned c n d = divCorner c true n d := if_pos ((divIsCorner_iff n d).2 h)

theorem divUnsigned_by_zero {d : Word} (h : d = 0) (c : DivCorner) (n : Word) : divUnsigned c n d = divCorner c false n d :=
  if_pos h

/-- Outside the corners the truncated quotient fits, and DIV is the library's signed division. -/
theorem divSigned_of_not_corner {n d : Word} (h0 : d ≠ 0) (hover : ¬(n = 0x80000000#32 ∧ d = 0xFFFFFFFF#32)) (c : DivCorner) :
    divSigned c n d = (n.srem d, n.sdiv d) := by
  have hquot := BitVec.toInt_sdiv_of_ne_or_ne n d (not_and_or.1 hover)
  rw [divSigned, if_neg (mt (divIsCorner_iff n d).1 (not_or.2 ⟨h0, hover⟩)), ← Int.tmod_def, ← BitVec.toInt_srem, ← hquot,
    BitVec.ofInt_toInt, BitVec.ofInt_toInt]

theorem divUnsigned_of_ne_zero {d : Word} (h : d ≠ 0) (c : DivCorner) (n : Word) : divUnsigned c n d = (n % d, n / d) := by
  rw [divUnsigned, if_neg h, BitVec.umod_def, BitVec.udiv_def]

theorem sdiv_mul_add_srem {n d : Word} (hover : ¬(n = 0x80000000#32 ∧ d = 0xFFFFFFFF#32)) :
    n.toInt = (n.sdiv d).toInt * d.toInt + (n.srem d).toInt := by
  rw [BitVec.toInt_sdiv_of_ne_or_ne n d (not_and_or.1 hover), BitVec.toInt_srem, Int.tdiv_mul_add_tmod]

theorem natAbs_srem_lt {d : Word} (h : d ≠ 0) (n : Word) : (n.srem d).toInt.natAbs < d.toInt.natAbs := by
  have hd : d.toInt ≠ 0 := fun h0 => h (BitVec.eq_of_toInt_eq h0)
  rw [BitVec.toInt_srem, Int.natAbs_tmod]
  exact Nat.mod_lt _ (Int.natAbs_pos.2 hd)

/-- The remainder of DIV is 0 or has the sign of the dividend (42_muldiv R231). -/
theorem srem_eq_zero_or_sign (n d : Word) : n.srem d = 0 ∨ ((n.srem d).toInt < 0 ↔ n.toInt < 0) := by
  have hsign := Int.sign_tmod n.toInt d.toInt
  rw [← BitVec.toInt_srem] at hsign
  split at hsign
  · exact .inl (BitVec.eq_of_toInt_eq (Int.sign_eq_zero_iff_zero.1 hsign))
  · exact .inr (by rw [← Int.sign_eq_neg_one_iff_neg, hsign, Int.sign_eq_neg_one_iff_neg])

/-- Settles O16: the halves are of the exact product, which fits in 64 bits. -/
theorem multiplyResults : Obligations.MultiplyResults := by
  intro s rs rt rd sh hz hread
  refine ⟨by simp [decode, decodeSpecial], by simp [decode, decodeSpecial], ?signed, ?unsigned⟩
  case signed => exact ⟨_, _, toInt_product _ _, completes_of_hiLoWrite hz hread rfl⟩
  case unsigned => exact ⟨_, _, toNat_product _ _, completes_of_hiLoWrite hz hread rfl⟩

/-- Without the hazard DIV and DIVU complete with the pair `divSigned` or `divUnsigned` gives. -/
theorem completes_div {s : State} {rs rt : Reg} {hi lo : Word} (hz : s.hiloAge = 0 ∨ s.cfg.hiloHazard = .ignore)
    (hread : canReadAll s [rs, rt] = true) (hr : divSigned s.cfg.divCorner (s.reg rs) (s.reg rt) = (hi, lo)) :
    Completes (.div rs rt) { hi := some hi, lo := some lo } s :=
  completes_of_hiLoWrite hz hread (by rw [exec, execDiv, hr]; rfl)

theorem completes_divu {s : State} {rs rt : Reg} {hi lo : Word} (hz : s.hiloAge = 0 ∨ s.cfg.hiloHazard = .ignore)
    (hread : canReadAll s [rs, rt] = true) (hr : divUnsigned s.cfg.divCorner (s.reg rs) (s.reg rt) = (hi, lo)) :
    Completes (.divu rs rt) { hi := some hi, lo := some lo } s :=
  completes_of_hiLoWrite hz hread (by rw [exec, execDivu, hr]; rfl)

/-- Settles O17: outside the corners both are the library's divisions, whose laws these are. -/
theorem divideResults : Obligations.DivideResults := by
  intro s rs rt rd sh hz hread
  refine ⟨by simp [decode, decodeSpecial], by simp [decode, decodeSpecial], fun h0 hover => ?signed, fun h0 => ?unsigned⟩
  case signed =>
    exact ⟨_, _, sdiv_mul_add_srem hover, natAbs_srem_lt h0 _, srem_eq_zero_or_sign _ _,
      completes_div hz hread (divSigned_of_not_corner h0 hover _)⟩
  case unsigned =>
    refine ⟨_, _, ?_, ?_, completes_divu hz hread (divUnsigned_of_ne_zero h0 _ _)⟩
    · rw [BitVec.toNat_udiv, BitVec.toNat_umod, Nat.div_add_mod']
    · exact BitVec.umod_lt _ ((BitVec.pos_iff_ne_zero _).2 h0)

/-! The default DIV_CORNER table (42_muldiv R241). -/

theorem chipCorner_by_zero_nonneg {n : Word} (h : 0 ≤ n.toInt) : chipCorner true n 0 = (n, 0xFFFFFFFF#32) := by
  simp [chipCorner, h]

theorem chipCorner_by_zero_neg {n : Word} (h : n.toInt < 0) : chipCorner true n 0 = (n, 1#32) := by
  simp [chipCorner, h]

/-- Settles O18: in a corner DIV and DIVU answer what DIV_CORNER gives; the default's rows are the lemmas on `chipCorner`. -/
theorem divideCorners : Obligations.DivideCorners := by
  intro s rs rt hz hread
  have signed {hi lo : Word} (h : s.reg rt = 0 ∨ (s.reg rs = 0x80000000#32 ∧ s.reg rt = 0xFFFFFFFF#32))
      (hr : divCorner s.cfg.divCorner true (s.reg rs) (s.reg rt) = (hi, lo)) :
      Completes (.div rs rt) { hi := some hi, lo := some lo } s :=
    completes_div hz hread ((divSigned_of_corner h _).trans hr)
  have unsigned {hi lo : Word} (h : s.reg rt = 0) (hr : divCorner s.cfg.divCorner false (s.reg rs) (s.reg rt) = (hi, lo)) :
      Completes (.divu rs rt) { hi := some hi, lo := some lo } s :=
    completes_divu hz hread ((divUnsigned_by_zero h _ _).trans hr)
  refine ⟨fun hc => ⟨fun hd hn => signed (.inl hd) ?_, fun hd hn => signed (.inl hd) ?_,
    fun hn hd => signed (.inr ⟨hn, hd⟩) ?_, fun hd => unsigned hd ?_⟩,
    fun k hc => ⟨fun h => signed h ?_, fun hd => unsigned hd ?_⟩⟩
  · rw [hc, hd]
    exact chipCorner_by_zero_nonneg hn
  · rw [hc, hd]
    exact chipCorner_by_zero_neg hn
  · rw [hc, hn, hd]
    rfl
  · rw [hc, hd]
    rfl
  · rw [hc]
    rfl
  · rw [hc]
    rfl

/-- Settles O19: MFHI and MFLO retire once what they read can be read; MTHI and MTLO are writers of one of hi and lo. -/
theorem hiLoMoves : Obligations.HiLoMoves := by
  intro s rs rt rd sh
  refine ⟨by simp [decode, decodeSpecial], by simp [decode, decodeSpecial], by simp [decode, decodeSpecial],
    by simp [decode, decodeSpecial], fun h => completes_of_retire ?mfhi, fun h => completes_of_retire ?mflo, fun hz hread => ?writes⟩
  case mfhi => rw [exec, execMfhi, h, afterRead_true]
  case mflo => rw [exec, execMflo, h, afterRead_true]
  case writes => exact ⟨completes_of_hiLoWrite hz hread rfl, completes_of_hiLoWrite hz hread rfl⟩

/-- Each writer of hi or lo reads some of its operands, and neither what it reads nor its effect depends on `hilo_age`. -/
theorem exists_exec_eq_runHiLoWrite (rs rt : Reg) :
    ∀ i ∈ [Instr.mult rs rt, .multu rs rt, .div rs rt, .divu rs rt, .mthi rs, .mtlo rs],
      ∃ sources ⊆ [rs, rt], ∃ effect : State → Effect, (∀ s, exec i s = runHiLoWrite sources (effect s) s) ∧
        ∀ s age, effect { s with hiloAge := age } = effect s := by
  have both : [rs, rt] ⊆ [rs, rt] := List.Subset.refl _
  have first : [rs] ⊆ [rs, rt] := by simp
  simp only [List.forall_mem_cons]
  exact ⟨⟨_, both, _, fun _ => rfl, fun _ _ => rfl⟩, ⟨_, both, _, fun _ => rfl, fun _ _ => rfl⟩,
    ⟨_, both, _, fun _ => rfl, fun _ _ => rfl⟩, ⟨_, both, _, fun _ => rfl, fun _ _ => rfl⟩,
    ⟨_, first, _, fun _ => rfl, fun _ _ => rfl⟩, ⟨_, first, _, fun _ => rfl, fun _ _ => rfl⟩, List.forall_mem_nil _⟩

theorem canReadAll_of_subset {s : State} {rs qs : List Reg} (hsub : qs ⊆ rs) (h : canReadAll s rs = true) :
    canReadAll s qs = true :=
  List.all_eq_true.2 fun q hq => List.all_eq_true.1 h q (hsub hq)

/-- Settles O20: the check comes first; past it, retiring with the same effect differs in `hilo_age` alone. -/
theorem hiLoHazardFaults : Obligations.HiLoHazardFaults := by
  intro s rs rt i hi
  obtain ⟨sources, hsub, effect, hexec, heffect⟩ := exists_exec_eq_runHiLoWrite rs rt i hi
  refine ⟨fun hage hp => (hexec s).trans (runHiLoWrite_of_hazard hage hp _ _), fun hp hread => ?_⟩
  have hsources := canReadAll_of_subset hsub hread
  have hrun (u : State) (hu : u.cfg.hiloHazard = .ignore) (hr : canReadAll u sources = true) :
      exec i u = .next (retire (effect u) u) := (hexec u).trans (runHiLoWrite_of_no_hazard (.inr hu) hr _)
  refine ⟨_, _, hrun s hp hsources, hrun { s with hiloAge := 0 } hp hsources, ?_⟩
  rw [heffect s 0]
  rfl

end Sys2Proof.Machine
end

section
/-! SUPPORT. Branches and jumps (43_branch_jump): every meaning reads its sources and then retires with a scheduled target, the linking
forms unless the link register is the one read. Said once here; each statement is then its words, its meanings and its conditions. -/

namespace Sys2Proof.Machine

/-- An instruction that reads registers and then retires completes with its effect. -/
theorem completes_of_read_retire {i : Instr} {sources : List Reg} {e : Effect} {s : State}
    (h : exec i s = afterRead (canReadAll s sources) (.next (retire e s))) (hread : canReadAll s sources = true) :
    Completes i e s :=
  completes_of_retire (by rw [h, hread, afterRead_true])

/-- An instruction that reads registers and then schedules by the condition `c`, with the link `wr` if it has one, completes with the
branch target where `c` holds and with the address after the delay slot where it does not (43_branch_jump R250). -/
theorem completes_of_condBranch {i : Instr} {sources : List Reg} {wr : Option RegWrite} {taken : Bool} {imm : BitVec 16} {s : State}
    {c : Prop} (h : exec i s = afterRead (canReadAll s sources) (.next (retire { wr := wr, br := some (condTarget taken imm s) } s)))
    (hread : canReadAll s sources = true) (hc : taken = true ↔ c) :
    (c → Completes i { wr := wr, br := some (branchTarget s.pc imm) } s) ∧
    (¬c → Completes i { wr := wr, br := some (afterSlot s.pc) } s) := by
  have hdone := completes_of_read_retire h hread
  rw [condTarget] at hdone
  refine ⟨fun htaken => ?_, fun hskipped => ?_⟩
  · rwa [if_pos (hc.2 htaken)] at hdone
  · rwa [if_neg (mt hc.1 hskipped)] at hdone

/-- Settles O21: J and JAL read nothing, JR reads its target. -/
theorem jumpResults : Obligations.JumpResults := by
  intro s target rs rt rd sh t26
  refine ⟨by simp [decode], by simp [decode], by simp [decode, decodeSpecial], ?j, ?jal, ?jr⟩
  case j => exact completes_of_retire rfl
  case jal => exact completes_of_retire rfl
  case jr => exact completes_of_read_retire rfl

/-- Settles O22: each meaning is its reads and then a target scheduled by its condition. -/
theorem conditionalBranchResults : Obligations.ConditionalBranchResults := by
  intro s rs rt imm a t
  refine ⟨by simp [decode], by simp [decode], by simp [decode], by simp [decode], by simp [decode, decodeRegimm],
    by simp [decode, decodeRegimm], fun hread => ?equality, fun hread => ?sign⟩
  case equality =>
    have beq := completes_of_condBranch (i := .beq rs rt imm) rfl hread beq_iff_eq
    have bne := completes_of_condBranch (i := .bne rs rt imm) rfl hread bne_iff_ne
    exact ⟨beq.1, beq.2, bne.1, fun heq => bne.2 (not_not.2 heq)⟩
  case sign =>
    have blez := completes_of_condBranch (i := .blez rs imm) rfl hread decide_eq_true_iff
    have bgtz := completes_of_condBranch (i := .bgtz rs imm) rfl hread decide_eq_true_iff
    have bltz := completes_of_condBranch (i := .bltz rs imm) rfl hread decide_eq_true_iff
    have bgez := completes_of_condBranch (i := .bgez rs imm) rfl hread decide_eq_true_iff
    exact ⟨blez.1, fun hpos => blez.2 (Int.not_le.2 hpos), bgtz.1, fun hle => bgtz.2 (Int.not_lt.2 hle),
      bltz.1, fun hge => bltz.2 (Int.not_lt.2 hge), bgez.1, fun hneg => bgez.2 (Int.not_le.2 hneg)⟩

/-- Settles O23: past the check of R264 each is its read and then a link with its target, which for JALR is the register read and for
the others is scheduled by the sign. -/
theorem linkingResults : Obligations.LinkingResults := by
  intro s rd rs rt sh imm a t link
  refine ⟨by simp [decode, decodeSpecial], by simp [decode, decodeRegimm], by simp [decode, decodeRegimm], fun hne => ?jalr,
    fun heq h0 => ?jalrFault, fun heq => ?signFault, fun hne hread => ?sign⟩
  case jalr => exact completes_of_read_retire (if_neg (not_and_not_right.2 hne.neg_resolve_left))
  case jalrFault => exact if_pos ⟨heq, h0⟩
  case signFault => exact ⟨if_pos heq, if_pos heq⟩
  case sign =>
    have bltzal := completes_of_condBranch (i := .bltzal rs imm) (if_neg hne) hread decide_eq_true_iff
    have bgezal := completes_of_condBranch (i := .bgezal rs imm) (if_neg hne) hread decide_eq_true_iff
    exact ⟨bltzal.1, fun hge => bltzal.2 (Int.not_lt.2 hge), bgezal.1, fun hneg => bgezal.2 (Int.not_le.2 hneg)⟩

end Sys2Proof.Machine
end

section
/-! SUPPORT. Loads and stores (44_load_store): past the read of its base an access is `loadVia` or `storeVia`. What each of the two does
in each of its branches is said once here, for any instruction that runs it; each statement is then its rows and their values. -/

namespace Sys2Proof.Machine

/-- CheckAddr in the words of 44_load_store R281. -/
theorem addrFault_iff {ea : Word} {w : Width} {s : State} :
    addrFault ea w s = true ↔ ea.toNat % widthBytes w ≠ 0 ∨ (s.sr.getLsbD 1 = true ∧ ea.getLsbD 31 = true) := by
  simp [addrFault, misaligned, srKUc]

/-- What the retired instruction found in the registers, it found before its bus accesses. -/
theorem Retired.of_busFrame {e : Effect} {s u t : State} (hu : BusFrame s u) (h : Retired e u t) : Retired e s t := by
  rw [hu] at h
  exact ⟨h.regs, h.written, h.slot, h.branch, h.pc, h.hi, h.lo, h.hiSet, h.loSet, h.age⟩

/-- An instruction that writes neither hi nor lo retires without a change of them. -/
theorem retire_eq_of_no_hiLo {e : Effect} (hhi : e.hi = none) (hlo : e.lo = none) (s : State) :
    retire e s = { s with
      gpr := (retire e s).gpr, pc := (retire e s).pc, ld := (retire e s).ld, br := (retire e s).br,
      hiloAge := (retire e s).hiloAge } := by
  simp [retire, hhi, hlo]

/-! The branches of a load. -/

section
variable {i : Instr} {s : State} {ok : Bool} {chk w : Width} {ea x : Word} {rt : Reg} {merged : Bool} {f : Word → Word}
  (hrun : exec i s = afterRead ok (loadVia chk w ea x rt merged f s)) (hok : ok = true)
include hrun hok

/-- A load at an address that fails CheckAddr enters AdEL. -/
theorem load_takes_adEL (hfault : addrFault ea chk s = true) (hnest : nestOk s = true) : Takes (.adEL ea) 4 i s := by
  rw [Takes, hrun, hok, afterRead_true, loadVia, if_pos hfault]
  exact enterException_entered (.adEL ea) hnest

/-- A load past CheckAddr with the cache isolated is refused. -/
theorem load_refused (haddr : addrFault ea chk s = false) (hisc : srIsC s = true) : exec i s = .refused .refuseIsolatedLoad := by
  simp [hrun, hok, loadVia, haddr, hisc]

/-- A load past its checks ends with the fault of its bus read. -/
theorem load_fault (haddr : addrFault ea chk s = false) (hisc : srIsC s = false) {e : Fault} (hbus : memRead x w s = .error e) :
    exec i s = .fault e := by
  simp [hrun, hok, loadVia, haddr, hisc, hbus]

/-- A load past its checks retires in the state its bus read left, with the value it makes of the word read in the load slot. -/
theorem load_next (haddr : addrFault ea chk s = false) (hisc : srIsC s = false) {v : Word} {u : State}
    (hbus : memRead x w s = .ok (v, u)) (hmerged : merged = true) : exec i s = .next (retire { ld := some ⟨rt, f v⟩ } u) := by
  simp [hrun, hok, loadVia, haddr, hisc, hbus, hmerged]

/-- A load from RAM, SPAD or BIOS past its checks: its value is made of the little-endian value at the cell. -/
theorem load_memory (haddr : addrFault ea chk s = false) (hisc : srIsC s = false) {h : Handler} {a : Nat}
    (hm : memoryAt s.cfg x = some (h, a)) (hmerged : merged = true) :
    ∃ t, exec i s = .next t ∧ Retired { ld := some ⟨rt, f (readMem s.mem a w)⟩ } s t ∧ LoadFrame h s t :=
  ⟨_, load_next hrun hok haddr hisc (memRead_memory hm) hmerged,
    (retire_retired _ (noteCall h s)).of_busFrame rfl, retire_eq_of_no_hiLo rfl rfl (noteCall h s), fun _ => rfl⟩

end

/-! The branches of a store. -/

section
variable {i : Instr} {s : State} {ok : Bool} {chk : Width} {ea : Word} {rt : Reg} {put : State → Except Fault State}
  (hrun : exec i s = afterRead ok (storeVia chk ea rt put s)) (hok : ok = true)
include hrun hok

/-- A store at an address that fails CheckAddr enters AdES. -/
theorem store_takes_adES (hfault : addrFault ea chk s = true) (hnest : nestOk s = true) : Takes (.adES ea) 5 i s := by
  rw [Takes, hrun, hok, afterRead_true, storeVia, if_pos hfault]
  exact enterException_entered (.adES ea) hnest

/-- A store past CheckAddr with the cache isolated completes and does nothing. -/
theorem store_isolated (haddr : addrFault ea chk s = false) (hisc : srIsC s = true) : Completes i {} s :=
  completes_of_retire (by simp [hrun, hok, storeVia, haddr, hisc])

/-- A store past its checks ends with the fault of its bus writes. -/
theorem store_fault (haddr : addrFault ea chk s = false) (hisc : srIsC s = false) (hread : canReadAll s [rt] = true) {e : Fault}
    (hbus : put s = .error e) : exec i s = .fault e := by
  simp [hrun, hok, storeVia, haddr, hisc, hread, hbus]

/-- A store past its checks retires in the state its bus writes left. -/
theorem store_next (haddr : addrFault ea chk s = false) (hisc : srIsC s = false) (hread : canReadAll s [rt] = true) {u : State}
    (hbus : put s = .ok u) : exec i s = .next (retire {} u) := by
  simp [hrun, hok, storeVia, haddr, hisc, hread, hbus]

end

/-- Settles O29: `load_takes_adEL` and `store_takes_adES`; LWL, LWR, SWL and SWR check as bytes do. -/
theorem dataAddressErrors : Obligations.DataAddressErrors := by
  intro s rt base off ea hnest hread
  simp only [List.forall_mem_cons]
  have load : ∀ {i : Instr} {chk w : Width} {x : Word} {merged : Bool} {f : Word → Word},
      exec i s = afterRead (canReadAll s [base]) (loadVia chk w ea x rt merged f s) →
      (ea.toNat % widthBytes chk ≠ 0 ∨ (s.sr.getLsbD 1 = true ∧ ea.getLsbD 31 = true)) → Takes (.adEL ea) 4 i s :=
    fun hrun hbad => load_takes_adEL hrun hread (addrFault_iff.2 hbad) hnest
  have store : ∀ {i : Instr} {chk : Width} {put : State → Except Fault State},
      exec i s = afterRead (canReadAll s [base]) (storeVia chk ea rt put s) →
      (ea.toNat % widthBytes chk ≠ 0 ∨ (s.sr.getLsbD 1 = true ∧ ea.getLsbD 31 = true)) → Takes (.adES ea) 5 i s :=
    fun hrun hbad => store_takes_adES hrun hread (addrFault_iff.2 hbad) hnest
  exact ⟨load (chk := .b8) rfl, load (chk := .b8) rfl, load (chk := .b16) rfl, load (chk := .b16) rfl, load (chk := .b32) rfl,
    load (chk := .b8) rfl, load (chk := .b8) rfl, store (chk := .b8) rfl, store (chk := .b16) rfl, store (chk := .b32) rfl,
    store (chk := .b8) rfl, store (chk := .b8) rfl, List.forall_mem_nil _⟩

/-- Settles O30: `load_refused` and `store_isolated`; LWL, LWR, SWL and SWR check as bytes do. -/
theorem cacheIsolation : Obligations.CacheIsolation := by
  intro s rt base off ea hread hisc huser
  simp only [List.forall_mem_cons]
  have load : ∀ {i : Instr} {chk w : Width} {x : Word} {merged : Bool} {f : Word → Word},
      exec i s = afterRead (canReadAll s [base]) (loadVia chk w ea x rt merged f s) → ea.toNat % widthBytes chk = 0 →
      exec i s = .refused .refuseIsolatedLoad :=
    fun hrun hal => load_refused hrun hread (addrFault_eq_false hal huser) hisc
  have store : ∀ {i : Instr} {chk : Width} {put : State → Except Fault State},
      exec i s = afterRead (canReadAll s [base]) (storeVia chk ea rt put s) → ea.toNat % widthBytes chk = 0 →
      Completes i {} s :=
    fun hrun hal => store_isolated hrun hread (addrFault_eq_false hal huser) hisc
  exact ⟨⟨load (chk := .b8) rfl, load (chk := .b8) rfl, load (chk := .b16) rfl, load (chk := .b16) rfl, load (chk := .b32) rfl,
      load (chk := .b8) rfl, load (chk := .b8) rfl, List.forall_mem_nil _⟩,
    store (chk := .b8) rfl, store (chk := .b16) rfl, store (chk := .b32) rfl, store (chk := .b8) rfl, store (chk := .b8) rfl,
    List.forall_mem_nil _⟩

/-! The merges of LWL and LWR. -/

theorem byteInWord_eq (ea : Word) : byteInWord ea = ea.toNat % 4 := by simp [byteInWord]

theorem pendingValue_eq (rt : Reg) (s : State) :
    pendingValue rt s = if names s.ld rt then (s.ld.map (·.val)).getD 0 else s.reg rt := by
  cases hl : s.ld <;> simp [pendingValue, hl]

theorem canMerge_iff {rt : Reg} {s : State} : canMerge rt s = true ↔ names s.ld rt = true ∨ canReadAll s [rt] = true := by
  simp [canMerge, canReadAll]

theorem lwlMerge_eq (k : Nat) (cur w : Word) :
    lwlMerge k cur w = if k = 0 then (cur &&& 0x00FFFFFF#32) ||| (w <<< 24) else if k = 1 then (cur &&& 0x0000FFFF#32) ||| (w <<< 16)
      else if k = 2 then (cur &&& 0x000000FF#32) ||| (w <<< 8) else w :=
  match k with
  | 0 | 1 | 2 | _ + 3 => rfl

theorem lwrMerge_eq (k : Nat) (cur w : Word) :
    lwrMerge k cur w = if k = 0 then w else if k = 1 then (cur &&& 0xFF000000#32) ||| (w >>> 8)
      else if k = 2 then (cur &&& 0xFFFF0000#32) ||| (w >>> 16) else (cur &&& 0xFFFFFF00#32) ||| (w >>> 24) :=
  match k with
  | 0 | 1 | 2 | _ + 3 => rfl

/-- Settles O24: `load_memory`, row by row. -/
theorem loadResults : Obligations.LoadResults := by
  intro s rt base off h a ea m hread hm hisc huser
  simp only [List.forall_mem_cons]
  have load : ∀ {i : Instr} {w : Width} {f : Word → Word} {v : Word},
      exec i s = afterRead (canReadAll s [base]) (loadVia w w ea ea rt true f s) → f (readMem s.mem a w) = v →
      ea.toNat % widthBytes w = 0 → ∃ t, exec i s = .next t ∧ Retired { ld := some ⟨rt, v⟩ } s t ∧ LoadFrame h s t := by
    rintro i w f _ hrun rfl hal
    exact load_memory hrun hread (addrFault_eq_false hal huser) hisc hm rfl
  refine ⟨load (w := .b8) rfl ?_, load (w := .b8) rfl ?_, load (w := .b16) rfl ?_, load (w := .b16) rfl ?_, load (w := .b32) rfl rfl,
    List.forall_mem_nil _⟩
  all_goals simp [signExt, clip, readMem, m]

/-- Settles O25: `load_memory` at the aligned word, with the merge by `lwlMerge` and `lwrMerge`. -/
theorem unalignedLoadResults : Obligations.UnalignedLoadResults := by
  intro s rt base off h a ea w cur k hread hmerge hm hisc huser
  have haddr : addrFault ea .b8 s = false := addrFault_eq_false (Nat.mod_one _) huser
  have hcur : pendingValue rt s = cur := pendingValue_eq rt s
  have hk : byteInWord (effAddr base off s) = k := byteInWord_eq ea
  have load : ∀ {i : Instr} {f : Word → Word},
      exec i s = afterRead (canReadAll s [base]) (loadVia .b8 .b32 ea (alignedWord ea) rt (canMerge rt s) f s) →
      ∃ t, exec i s = .next t ∧ Retired { ld := some ⟨rt, f w⟩ } s t ∧ LoadFrame h s t := fun hrun =>
    load_memory hrun hread haddr hisc hm (canMerge_iff.2 hmerge)
  obtain ⟨t, hlwl, hlwlRetired, hlwlFrame⟩ := load (i := .lwl rt base off) rfl
  obtain ⟨u, hlwr, hlwrRetired, hlwrFrame⟩ := load (i := .lwr rt base off) rfl
  refine ⟨⟨t, _, hlwl, hlwlRetired, hlwlFrame, ?_⟩, u, _, hlwr, hlwrRetired, hlwrFrame, ?_⟩ <;> rw [hcur, hk] <;>
    exact ⟨fun h => by rw [h]; rfl, fun h => by rw [h]; rfl, fun h => by rw [h]; rfl, fun h => by rw [h]; rfl⟩

end Sys2Proof.Machine
end

section
/-! SUPPORT. The bytes a store leaves (44_load_store R293 to R299): bus writes at addresses that reach RAM, SPAD or BIOS, and the words SWL
and SWR merge, byte by byte. -/

namespace Sys2Proof.Machine

/-! Bus writes of memory. -/

/-- The state after `n` writes to handler `h` that leave memory `m`. -/
def afterWrites (h : Handler) (n : Nat) (m : List Host.Cell) (s : State) : State :=
  { s with mem := m, cycles := s.cycles + n * latencyOf h, busCalls := s.busCalls + n }

/-- What a write leaves of memory `m` that would become `m'`: the BIOS keeps its own (20_memory R103). -/
def keptByBios (h : Handler) (m m' : List Host.Cell) : List Host.Cell := if h = .bios then m else m'

theorem afterWrites_zero (h : Handler) (s : State) : afterWrites h 0 s.mem s = s := by simp [afterWrites]

theorem afterWrites_add_one (h : Handler) (n : Nat) (m m' : List Host.Cell) (s : State) :
    afterWrites h n m' (afterWrites h 1 m s) = afterWrites h (n + 1) m' s := by
  simp [afterWrites, Nat.add_mul, Nat.add_comm, Nat.add_left_comm, Nat.add_assoc]

/-- `memWrite_memory` as one write. -/
theorem memWrite_afterWrites {x v : Word} {w : Width} {s : State} {h : Handler} {a : Nat} (hm : memoryAt s.cfg x = some (h, a)) :
    memWrite x w v s = .ok (afterWrites h 1 (keptByBios h s.mem (writeMem s.mem a w v)) s) := by
  simp [memWrite_memory hm, noteCall, afterWrites, keptByBios]

/-- Writing the low bits of a width writes what the whole value would (20_memory R97). -/
theorem writeMem_clip (m : List Host.Cell) (a : Nat) (w : Width) (v : Word) : writeMem m a w (clip w v) = writeMem m a w v := by
  have hbytes : storedBytes w (clip w v) = storedBytes w v := by
    cases w <;> simp [storedBytes, bytesOfWord, clip, widthBytes, BitVec.extractLsb'_setWidth_of_le]
  rw [writeMem, hbytes, writeMem]

/-- A byte after a write to handler `h`. -/
theorem readByte_keptByBios_writeMem (h : Handler) (m : List Host.Cell) (a : Nat) (w : Width) (v : Word) (x : Nat) :
    readByte (keptByBios h m (writeMem m a w v)) x = byteAfterStore h m a (widthBytes w) v x := by
  by_cases hb : h = .bios
  · simp [keptByBios, byteAfterStore, hb]
  · simp [keptByBios, byteAfterStore, hb, readByte_writeMem]

/-- A store to RAM, SPAD or BIOS past its checks retires in the state its `n` writes left. -/
theorem store_memory {i : Instr} {s : State} {ok : Bool} {chk : Width} {ea : Word} {rt : Reg} {put : State → Except Fault State}
    {h : Handler} {n : Nat} {m : List Host.Cell} (hrun : exec i s = afterRead ok (storeVia chk ea rt put s)) (hok : ok = true)
    (haddr : addrFault ea chk s = false) (hisc : srIsC s = false) (hread : canReadAll s [rt] = true)
    (hbus : put s = .ok (afterWrites h n m s)) :
    ∃ t, exec i s = .next t ∧ Retired {} s t ∧ StoreFrame h n s t ∧ t.mem = m :=
  ⟨_, store_next hrun hok haddr hisc hread hbus, (retire_retired {} (afterWrites h n m s)).of_busFrame rfl,
    retire_eq_of_no_hiLo rfl rfl (afterWrites h n m s), rfl⟩

/-- The registers of a store, read one after the other. -/
theorem canReadAll_pair {s : State} {p q : Reg} :
    canReadAll s [p, q] = true ↔ canReadAll s [p] = true ∧ canReadAll s [q] = true := by
  simp [canReadAll]

/-- Settles O26: `store_memory` with one write; the bytes are `readByte_keptByBios_writeMem`. -/
theorem storeResults : Obligations.StoreResults := by
  intro s rt base off h a ea hreads hm hisc huser
  obtain ⟨hbase, hrt⟩ := canReadAll_pair.1 hreads
  simp only [List.forall_mem_cons]
  have store : ∀ {i : Instr} {w : Width},
      exec i s = afterRead (canReadAll s [base]) (storeVia w ea rt (memWrite ea w (clip w (s.reg rt))) s) →
      ea.toNat % widthBytes w = 0 → ∃ t, exec i s = .next t ∧ Retired {} s t ∧ StoreFrame h 1 s t ∧
        ∀ x, readByte t.mem x = byteAfterStore h s.mem a (widthBytes w) (s.reg rt) x := by
    intro i w hrun hal
    obtain ⟨t, hnext, hretired, hframe, hmem⟩ :=
      store_memory hrun hbase (addrFault_eq_false hal huser) hisc hrt (memWrite_afterWrites hm)
    refine ⟨t, hnext, hretired, hframe, fun x => ?_⟩
    rw [hmem, writeMem_clip, readByte_keptByBios_writeMem]
  exact ⟨store (w := .b8) rfl, store (w := .b16) rfl, store (w := .b32) rfl, List.forall_mem_nil _⟩

/-! The byte writes of SWL and SWR. -/

theorem alignedWord_toNat_mod (ea : Word) : (alignedWord ea).toNat % 4 = 0 := misaligned_eq_false.1 (alignedWord_aligned ea)

/-- Memory `m` with each byte of the list written at its place in the word at cell `a`. -/
def writeCells (m : List Host.Cell) (a : Nat) (bs : List (Nat × Byte)) : List Host.Cell :=
  match bs with
  | [] => m
  | (j, b) :: rest => writeCells (writeByte m (a + j) b) a rest

theorem readByte_writeCells_of_outside {m : List Host.Cell} {a : Nat} {bs : List (Nat × Byte)} (hbs : ∀ p ∈ bs, p.1 < 4) {x : Nat}
    (hx : x < a ∨ a + 4 ≤ x) : readByte (writeCells m a bs) x = readByte m x := by
  induction bs generalizing m with
  | nil => rfl
  | cons p rest ih =>
    obtain ⟨hp, hrest⟩ := List.forall_mem_cons.1 hbs
    rw [writeCells, ih hrest, readByte_writeByte, if_neg (by omega)]

theorem writeMem_b8 (m : List Host.Cell) (a : Nat) (b : Byte) : writeMem m a .b8 (b.setWidth 32) = writeByte m a b := by
  simp [writeMem, storedBytes, bytesOfWord, widthBytes, writeBytes, BitVec.extractLsb'_setWidth_of_le]

/-- Byte writes within an aligned word that reaches RAM, SPAD or BIOS. -/
theorem writeEach_memory {x : Word} {bs : List (Nat × Byte)} {s : State} {h : Handler} {a : Nat}
    (hm : memoryAt s.cfg x = some (h, a)) (hx : x.toNat % 4 = 0) (hbs : ∀ p ∈ bs, p.1 < 4) :
    writeEach x bs s = .ok (afterWrites h bs.length (keptByBios h s.mem (writeCells s.mem a bs)) s) := by
  induction bs generalizing s with
  | nil => simp [writeEach, writeCells, keptByBios, afterWrites_zero]
  | cons p rest ih =>
    obtain ⟨j, b⟩ := p
    obtain ⟨hj, hrest⟩ := List.forall_mem_cons.1 hbs
    have hbyte := memWrite_afterWrites (v := b.setWidth 32) (w := .b8) (memoryAt_add hm hx hj)
    simp only [writeEach, hbyte, writeMem_b8]
    rw [ih (s := afterWrites _ _ _ s) hm hrest, afterWrites_add_one]
    by_cases hb : h = .bios <;> simp [keptByBios, writeCells, afterWrites, hb]

/-! The bytes of a word. -/

/-- A word of memory is the value whose bytes it holds. -/
theorem wordAt_eq_of_bytes {m : List Host.Cell} {a : Nat} {v : Word} (h : ∀ j < 4, readByte m (a + j) = regByte v j) :
    wordAt m a = v := by
  rw [← word_bytes v, wordAt, h 3 (by decide), h 2 (by decide), h 1 (by decide), show readByte m a = _ from h 0 (by decide)]
  rfl

theorem regByte_wordAt (m : List Host.Cell) (a : Nat) {j : Nat} (hj : j < 4) : regByte (wordAt m a) j = readByte m (a + j) := by
  apply BitVec.eq_of_getLsbD_eq
  intro i hi
  simp only [regByte, wordAt, BitVec.getLsbD_extractLsb', BitVec.getLsbD_append]
  interval_cases j <;> interval_cases i <;> simp

theorem regByte_or (x y : Word) (j : Nat) : regByte (x ||| y) j = regByte x j ||| regByte y j := BitVec.extractLsb'_or

theorem regByte_and (x y : Word) (j : Nat) : regByte (x &&& y) j = regByte x j &&& regByte y j := BitVec.extractLsb'_and

theorem regByte_ushiftRight (r : Word) (j n : Nat) : regByte (r >>> (8 * n)) j = regByte r (j + n) := by
  apply BitVec.eq_of_getLsbD_eq
  intro i hi
  simp only [regByte, BitVec.getLsbD_extractLsb', BitVec.getLsbD_ushiftRight]
  rw [show 8 * n + (8 * j + i) = 8 * (j + n) + i by omega]

theorem regByte_shiftLeft (r : Word) {j : Nat} (hj : j < 4) (n : Nat) :
    regByte (r <<< (8 * n)) j = if n ≤ j then regByte r (j - n) else 0#8 := by
  apply BitVec.eq_of_getLsbD_eq
  intro i hi
  have hbit : 8 * j + i < 32 := by omega
  simp only [regByte, BitVec.getLsbD_extractLsb', BitVec.getLsbD_shiftLeft, hi, hbit, decide_true, Bool.true_and]
  split
  · simp [hi, show ¬ 8 * j + i < 8 * n by omega, show 8 * j + i - 8 * n = 8 * (j - n) + i by omega]
  · simp [show 8 * j + i < 8 * n by omega]

/-- A word has no byte 4. -/
theorem regByte_of_le (r : Word) {j : Nat} (hj : 4 ≤ j) : regByte r j = 0#8 := by
  apply BitVec.eq_of_getLsbD_eq
  intro i hi
  simp only [regByte, BitVec.getLsbD_extractLsb', BitVec.getLsbD_zero]
  rw [BitVec.getLsbD_of_ge _ _ (by omega), Bool.and_false]

theorem regByte_allOnes : ∀ j < 4, regByte (BitVec.allOnes 32) j = BitVec.allOnes 8 := by decide

/-! The merges of SWL and SWR. -/

/-- The word SWL leaves of the word `m`: its bytes above byte k stay, the top k + 1 bytes of the register come below them
(44_load_store R297). -/
def swlMerge (k : Nat) (m r : Word) : Word := (m &&& BitVec.allOnes 32 <<< (8 * (k + 1))) ||| r >>> (8 * (3 - k))

/-- The word SWR leaves of the word `m`: its bytes below byte k stay, the low 4 - k bytes of the register come above them
(44_load_store R298). -/
def swrMerge (k : Nat) (m r : Word) : Word := (m &&& BitVec.allOnes 32 >>> (8 * (4 - k))) ||| r <<< (8 * k)

theorem regByte_swlMerge {k j : Nat} (hk : k < 4) (hj : j < 4) (m r : Word) :
    regByte (swlMerge k m r) j = if j ≤ k then regByte r (j + (3 - k)) else regByte m j := by
  rw [swlMerge, regByte_or, regByte_and, regByte_shiftLeft _ hj, regByte_ushiftRight]
  by_cases h : j ≤ k
  · simp [h, show ¬ k + 1 ≤ j by omega]
  · rw [if_neg h, if_pos (by omega), regByte_allOnes _ (by omega), BitVec.and_allOnes, regByte_of_le r (by omega), BitVec.or_zero]

theorem regByte_swrMerge {k j : Nat} (hk : k < 4) (hj : j < 4) (m r : Word) :
    regByte (swrMerge k m r) j = if k ≤ j then regByte r (j - k) else regByte m j := by
  rw [swrMerge, regByte_or, regByte_and, regByte_shiftLeft _ hj, regByte_ushiftRight]
  by_cases h : k ≤ j
  · simp [h, regByte_of_le _ (show 4 ≤ j + (4 - k) by omega)]
  · rw [if_neg h, if_neg h, regByte_allOnes _ (by omega), BitVec.and_allOnes, BitVec.or_zero]

/-- The word whose bytes SWL writes (44_load_store R297). -/
theorem wordAt_writeCells_swlBytes {k : Nat} (hk : k < 4) (m : List Host.Cell) (a : Nat) (r : Word) :
    wordAt (writeCells m a (swlBytes k r)) a = swlMerge k (wordAt m a) r := by
  refine wordAt_eq_of_bytes fun j hj => ?_
  rw [regByte_swlMerge hk hj, regByte_wordAt m a hj]
  interval_cases k <;> interval_cases j <;> simp [swlBytes, writeCells, readByte_writeByte]

/-- The word whose bytes SWR writes (44_load_store R298). -/
theorem wordAt_writeCells_swrBytes {k : Nat} (hk : k < 4) (m : List Host.Cell) (a : Nat) (r : Word) :
    wordAt (writeCells m a (swrBytes k r)) a = swrMerge k (wordAt m a) r := by
  refine wordAt_eq_of_bytes fun j hj => ?_
  rw [regByte_swrMerge hk hj, regByte_wordAt m a hj]
  interval_cases k <;> interval_cases j <;> simp [swrBytes, writeCells, readByte_writeByte]

theorem length_swlBytes {k : Nat} (hk : k < 4) (r : Word) : (swlBytes k r).length = k + 1 := by
  interval_cases k <;> rfl

theorem length_swrBytes {k : Nat} (hk : k < 4) (r : Word) : (swrBytes k r).length = 4 - k := by
  interval_cases k <;> rfl

theorem swlBytes_calls {k : Nat} (hk : k < 4) (r : Word) :
    (if (swlBytes k r).length = 4 then 1 else (swlBytes k r).length) = if k = 3 then 1 else k + 1 := by
  interval_cases k <;> rfl

theorem swrBytes_calls {k : Nat} (hk : k < 4) (r : Word) :
    (if (swrBytes k r).length = 4 then 1 else (swrBytes k r).length) = if k = 0 then 1 else 4 - k := by
  interval_cases k <;> rfl

/-- A list of bytes to store from register `r` within an aligned word: four bytes are the whole register. -/
structure StoredFrom (r : Word) (bs : List (Nat × Byte)) : Prop where
  inWord : ∀ p ∈ bs, p.1 < 4
  whole  : bs.length = 4 → bs = [(0, regByte r 0), (1, regByte r 1), (2, regByte r 2), (3, regByte r 3)]

theorem swlBytes_storedFrom {k : Nat} (hk : k < 4) (r : Word) : StoredFrom r (swlBytes k r) where
  inWord := by interval_cases k <;> simp [swlBytes]
  whole hlen := by
    rw [length_swlBytes hk] at hlen
    obtain rfl : k = 3 := by omega
    rfl

theorem swrBytes_storedFrom {k : Nat} (hk : k < 4) (r : Word) : StoredFrom r (swrBytes k r) where
  inWord := by interval_cases k <;> simp [swrBytes]
  whole hlen := by
    rw [length_swrBytes hk] at hlen
    obtain rfl : k = 0 := by omega
    rfl

/-- The bus writes of SWL and SWR in an aligned word that reaches RAM, SPAD or BIOS: one word write for four bytes, else one write a
byte (44_load_store R299). -/
theorem storeBytes_memory {x r : Word} {bs : List (Nat × Byte)} {s : State} {h : Handler} {a : Nat}
    (hm : memoryAt s.cfg x = some (h, a)) (hx : x.toNat % 4 = 0) (hbs : StoredFrom r bs) :
    storeBytes x bs r s =
      .ok (afterWrites h (if bs.length = 4 then 1 else bs.length) (keptByBios h s.mem (writeCells s.mem a bs)) s) := by
  unfold storeBytes
  split
  · next hlen =>
    rw [memWrite_afterWrites hm, hbs.whole hlen]
    rfl
  · exact writeEach_memory hm hx hbs.inWord

/-- An unaligned store to RAM, SPAD or BIOS past its checks: what it leaves of the aligned word, and every other byte. -/
theorem unalignedStore_memory {i : Instr} {s : State} {ok : Bool} {ea : Word} {rt : Reg} {bs : List (Nat × Byte)} {h : Handler}
    {a : Nat} (hrun : exec i s = afterRead ok (storeVia .b8 ea rt (storeBytes (alignedWord ea) bs (s.reg rt)) s)) (hok : ok = true)
    (haddr : addrFault ea .b8 s = false) (hisc : srIsC s = false) (hread : canReadAll s [rt] = true)
    (hm : memoryAt s.cfg (alignedWord ea) = some (h, a)) (hbs : StoredFrom (s.reg rt) bs) :
    ∃ t, exec i s = .next t ∧ Retired {} s t ∧ StoreFrame h (if bs.length = 4 then 1 else bs.length) s t ∧
      (∀ y, y < a ∨ a + 4 ≤ y → readByte t.mem y = readByte s.mem y) ∧
      wordAt t.mem a = if h = .bios then wordAt s.mem a else wordAt (writeCells s.mem a bs) a := by
  obtain ⟨t, hnext, hretired, hframe, hmem⟩ :=
    store_memory hrun hok haddr hisc hread (storeBytes_memory hm (alignedWord_toNat_mod ea) hbs)
  refine ⟨t, hnext, hretired, hframe, fun y hy => ?_, ?_⟩ <;> rw [hmem, keptByBios]
  · split
    · rfl
    · exact readByte_writeCells_of_outside hbs.inWord hy
  · split <;> rfl

/-- Settles O27: `unalignedStore_memory` with the words `wordAt_writeCells_swlBytes` and `wordAt_writeCells_swrBytes`. -/
theorem unalignedStoreResults : Obligations.UnalignedStoreResults := by
  intro s rt base off h a ea m r k becomes hreads hm hisc huser
  obtain ⟨hbase, hrt⟩ := canReadAll_pair.1 hreads
  have haddr : addrFault ea .b8 s = false := addrFault_eq_false (Nat.mod_one _) huser
  have hk : k < 4 := Nat.mod_lt _ (by decide)
  have hplace : byteInWord (effAddr base off s) = k := byteInWord_eq ea
  refine ⟨?swl, ?swr⟩
  case swl =>
    obtain ⟨t, hnext, hretired, hframe, hother, hword⟩ := unalignedStore_memory (i := .swl rt base off) (bs := swlBytes k r)
      (by rw [← hplace]; rfl) hbase haddr hisc hrt hm (swlBytes_storedFrom hk r)
    rw [wordAt_writeCells_swlBytes hk] at hword
    rw [swlBytes_calls hk] at hframe
    have merged : ∀ {v}, swlMerge k m r = v → becomes t v := fun hv => hv ▸ hword
    exact ⟨t, hnext, hretired, hframe, hother, fun h0 => merged (by rw [h0]; rfl), fun h1 => merged (by rw [h1]; rfl),
      fun h2 => merged (by rw [h2]; rfl), fun h3 => merged (by rw [h3]; simp [swlMerge])⟩
  case swr =>
    obtain ⟨t, hnext, hretired, hframe, hother, hword⟩ := unalignedStore_memory (i := .swr rt base off) (bs := swrBytes k r)
      (by rw [← hplace]; rfl) hbase haddr hisc hrt hm (swrBytes_storedFrom hk r)
    rw [wordAt_writeCells_swrBytes hk] at hword
    rw [swrBytes_calls hk] at hframe
    have merged : ∀ {v}, swrMerge k m r = v → becomes t v := fun hv => hv ▸ hword
    exact ⟨t, hnext, hretired, hframe, hother, fun h0 => merged (by rw [h0]; simp [swrMerge]), fun h1 => merged (by rw [h1]; rfl),
      fun h2 => merged (by rw [h2]; rfl), fun h3 => merged (by rw [h3]; rfl)⟩

end Sys2Proof.Machine
end

section
/-! SUPPORT. Loads and stores through the bus at any address, memory or device (44_load_store R280, R284 to R299): the first bus access
decides a fault, and what it leaves is the state the instruction retires in. -/

namespace Sys2Proof.Machine

/-- An address is its aligned word and the byte in it. -/
theorem alignedWord_add (ea : Word) : alignedWord ea + BitVec.ofNat 32 (ea.toNat % 4) = ea := by
  have hlow : BitVec.ofNat 32 (ea.toNat % 4) = ea &&& 3#32 := by
    apply BitVec.eq_of_toNat_eq
    rw [BitVec.toNat_and, show (3#32).toNat = 2 ^ 2 - 1 by rfl, Nat.and_two_pow_sub_one_eq_mod, BitVec.toNat_ofNat]
    omega
  have hdisjoint : alignedWord ea &&& (ea &&& 3#32) = 0#32 := by
    rw [alignedWord, BitVec.and_assoc, BitVec.and_comm ea 3#32, ← BitVec.and_assoc 0xFFFFFFFC#32]
    simp
  rw [hlow, BitVec.add_eq_or_of_and_eq_zero _ _ hdisjoint, alignedWord, ← BitVec.and_or_distrib_left]
  exact BitVec.and_allOnes

theorem regByte_zero (r : Word) : regByte r 0 = r.setWidth 8 := (BitVec.setWidth_eq_extractLsb' (by decide)).symm

/-- Of fewer than four bytes the first is written first. -/
theorem storeBytes_error_of_first {x r : Word} {j : Nat} {b : Byte} {rest : List (Nat × Byte)} {s : State} {e : Fault}
    (hlen : rest.length ≠ 3) (hfirst : memWrite (x + BitVec.ofNat 32 j) .b8 (b.setWidth 32) s = .error e) :
    storeBytes x ((j, b) :: rest) r s = .error e := by
  simp [storeBytes, hlen, writeEach, hfirst]

/-- With fewer than four bytes to write, SWL writes the byte at the start of the aligned word first. -/
theorem storeBytes_swlBytes_error {x r : Word} {k : Nat} (hk : k < 3) {s : State} {e : Fault}
    (hfirst : memWrite x .b8 ((regByte r (3 - k)).setWidth 32) s = .error e) : storeBytes x (swlBytes k r) r s = .error e := by
  rw [← BitVec.add_zero x] at hfirst
  interval_cases k <;> exact storeBytes_error_of_first (by simp) hfirst

/-- With fewer than four bytes to write, SWR writes the byte at the address itself first. -/
theorem storeBytes_swrBytes_error {x r : Word} {k : Nat} (h0 : 0 < k) (hk : k < 4) {s : State} {e : Fault}
    (hfirst : memWrite (x + BitVec.ofNat 32 k) .b8 ((regByte r 0).setWidth 32) s = .error e) :
    storeBytes x (swrBytes k r) r s = .error e := by
  interval_cases k <;> exact storeBytes_error_of_first (by simp) hfirst

/-- An instruction that ends in the retire of `e` in state `u`. -/
theorem retires_of_next {i : Instr} {e : Effect} {s u : State} (h : exec i s = .next (retire e u)) :
    ∃ t, exec i s = .next t ∧ Retired e u t ∧ CpuFrame u t := ⟨_, h, retire_retired e u, retire_frame e u⟩

/-- Settles O28: the branches of `loadVia` and `storeVia` past their checks, with the merges by `lwlMerge_eq` and `lwrMerge_eq`. -/
theorem accessesThroughTheBus : Obligations.AccessesThroughTheBus := by
  intro s rt base off ea al r k cur lwl lwr hbase hisc huser
  have haddr : ∀ {w : Width}, ea.toNat % widthBytes w = 0 → addrFault ea w s = false := fun hal => addrFault_eq_false hal huser
  have hbyte : addrFault ea .b8 s = false := haddr (w := .b8) (Nat.mod_one _)
  have hk : k < 4 := Nat.mod_lt _ (by decide)
  have hplace : byteInWord (effAddr base off s) = k := byteInWord_eq ea
  refine ⟨fun row hrow hal => ?loads, fun row hrow => ?merges, fun hrt => ⟨fun row hrow hal => ?stores,
    fun row hrow hwhole => ?words, fun e hne hfirst => ?swl, fun e hne hfirst => ?swr⟩⟩
  case loads =>
    have hrun : exec row.1 s = afterRead (canReadAll s [base]) (loadVia row.2.1 row.2.1 ea ea rt true row.2.2 s) := by
      clear hal
      revert row
      simp only [List.forall_mem_cons]
      exact ⟨rfl, rfl, rfl, rfl, rfl, List.forall_mem_nil _⟩
    exact ⟨fun e => load_fault hrun hbase (haddr hal) hisc,
      fun v u hbus => retires_of_next (load_next hrun hbase (haddr hal) hisc hbus rfl)⟩
  case merges =>
    have hrun : exec row.1 s = afterRead (canReadAll s [base]) (loadVia .b8 .b32 ea al rt (canMerge rt s) row.2 s) := by
      have hcur : pendingValue rt s = cur := pendingValue_eq rt s
      have hlwl : lwlMerge k cur = lwl := funext (lwlMerge_eq k cur)
      have hlwr : lwrMerge k cur = lwr := funext (lwrMerge_eq k cur)
      revert row
      simp only [List.forall_mem_cons, ← hlwl, ← hlwr, ← hcur, ← hplace]
      exact ⟨rfl, rfl, List.forall_mem_nil _⟩
    exact ⟨fun e => load_fault hrun hbase hbyte hisc,
      fun v u hbus hmerge => retires_of_next (load_next hrun hbase hbyte hisc hbus (canMerge_iff.2 hmerge))⟩
  case stores =>
    have hrun : exec row.1 s = afterRead (canReadAll s [base]) (storeVia row.2.1 ea rt (memWrite ea row.2.1 row.2.2) s) := by
      clear hal
      revert row
      simp only [List.forall_mem_cons]
      exact ⟨rfl, rfl, rfl, List.forall_mem_nil _⟩
    exact ⟨fun e => store_fault hrun hbase (haddr hal) hisc hrt,
      fun u hbus => retires_of_next (store_next hrun hbase (haddr hal) hisc hrt hbus)⟩
  case words =>
    have hrun : exec row.1 s = afterRead (canReadAll s [base]) (storeVia .b8 ea rt (memWrite al .b32 r) s) := by
      rw [← hplace] at hwhole
      revert row
      simp only [List.forall_mem_cons, exec, execSwl, execSwr]
      exact ⟨fun h3 => by rw [h3]; rfl, fun h0 => by rw [h0]; rfl, List.forall_mem_nil _⟩
    exact ⟨fun e => store_fault hrun hbase hbyte hisc hrt,
      fun u hbus => retires_of_next (store_next hrun hbase hbyte hisc hrt hbus)⟩
  case swl =>
    exact store_fault (i := .swl rt base off) rfl hbase hbyte hisc hrt
      (by rw [hplace]; exact storeBytes_swlBytes_error (by omega) hfirst)
  case swr =>
    rw [← regByte_zero, ← alignedWord_add ea] at hfirst
    exact store_fault (i := .swr rt base off) rfl hbase hbyte hisc hrt
      (by rw [hplace]; exact storeBytes_swrBytes_error (by omega) hk hfirst)

end Sys2Proof.Machine
end

section
/-! SUPPORT. Coprocessor and system instructions (45_cop_system): a COP instruction runs where its coprocessor is usable and enters CpU
where it is not. Past that check MFC0 and MTC0 are `cop0Read` and `cop0Write`, and a change of COP0's own registers is none of what
`Retired` speaks of. -/

namespace Sys2Proof.Machine

/-! The usability check. -/

/-- Usability in the words of 45_cop_system R310. -/
theorem copUsable_iff {z : BitVec 2} {s : State} :
    copUsable z s = true ↔ (z = 0 ∧ s.sr.getLsbD 1 = false) ∨ s.sr.getLsbD (28 + z.toNat) = true := by
  simp [copUsable, srKUc, srCU]

section
variable {i : Instr} {z : BitVec 2} {s : State} {run : Result} (hrun : exec i s = ifUsable z s run)
include hrun

theorem exec_of_usable (hu : copUsable z s = true) : exec i s = run := by
  rw [hrun, ifUsable, if_pos hu]

theorem takes_cpU (hu : copUsable z s = false) (hnest : nestOk s = true) : Takes (.cpU z) 11 i s := by
  rw [Takes, hrun, ifUsable, if_neg (Bool.eq_false_iff.1 hu)]
  exact enterException_entered (.cpU z) hnest

end

/-! MFC0 (45_cop_system R311, R312). -/

theorem completes_mfc0 {s : State} (hu : copUsable 0 s = true) {rt rd : Reg} {v : Word} (hread : cop0Read rd s = .ok v) :
    Completes (.mfc0 rt rd) { ld := some ⟨rt, v⟩ } s :=
  completes_of_retire (by rw [exec_of_usable (i := .mfc0 rt rd) rfl hu, hread])

theorem mfc0_refused {s : State} (hu : copUsable 0 s = true) (rt : Reg) {rd : Reg} {r : Refusal}
    (hread : cop0Read rd s = .error r) : exec (.mfc0 rt rd) s = .refused r := by
  rw [exec_of_usable (i := .mfc0 rt rd) rfl hu, hread]

/-- CAUSE with its IP bits written out. -/
theorem causeWord_eq (s : State) : causeWord s =
    BitVec.ofBool s.cause.bd ++ 0#1 ++ s.cause.ce ++ 0#12 ++ 0#5 ++ BitVec.ofBool (s.iStat &&& s.iMask != 0) ++
      s.cause.ip ++ 0#1 ++ s.cause.excCode ++ 0#2 := by
  simp only [causeWord, pendingIP, irqLine, BitVec.append_assoc, BitVec.cast_eq]

theorem cop0Read_of_ge {rd : Reg} (h : 16 ≤ rd.toNat) (s : State) : cop0Read rd s = .error .refuseCop0Reg := by
  unfold cop0Read
  split
  case h_12 => rfl
  all_goals omega

/-- Settles O36: `cop0Read` at each number, its value through the load slot. -/
theorem moveFromCop0Results : Obligations.MoveFromCop0Results := by
  intro s rt rd husable
  have hu : copUsable 0 s = true := copUsable_zero husable
  refine ⟨decodeOfEncode (.mfc0 rt rd), fun row hrow => completes_mfc0 hu ?values, fun r hr => mfc0_refused hu rt ?debug,
    fun r hr => mfc0_refused hu rt ?none, fun r hr => mfc0_refused hu rt (cop0Read_of_ge hr s)⟩
  case values =>
    revert row
    simp only [List.forall_mem_cons, ← causeWord_eq]
    exact ⟨rfl, rfl, rfl, rfl, rfl, List.forall_mem_nil _⟩
  case debug =>
    revert r
    simp only [List.forall_mem_cons]
    exact ⟨rfl, rfl, rfl, rfl, rfl, rfl, List.forall_mem_nil _⟩
  case none =>
    revert r
    simp only [List.forall_mem_cons]
    exact ⟨rfl, rfl, rfl, rfl, rfl, List.forall_mem_nil _⟩

/-! MTC0 (45_cop_system R313, R314) and RFE (R316). -/

/-- Nothing but COP0's registers and the exception depth has changed. -/
abbrev Cop0Frame (s u : State) : Prop :=
  u = { s with
    sr := u.sr, cause := u.cause, bpc := u.bpc, bda := u.bda, dcic := u.dcic, bdam := u.bdam, bpcm := u.bpcm,
    excDepth := u.excDepth }

/-- An instruction that retires after a change of COP0 has retired in the state it began in: COP0 is none of what it says. -/
theorem retires_of_cop0Frame {i : Instr} {e : Effect} {s u : State} (h : exec i s = .next (retire e u)) (hu : Cop0Frame s u) :
    ∃ t, exec i s = .next t ∧ Retired e s t ∧ CpuFrame u t := by
  obtain ⟨t, ht, hretired, hframe⟩ := retires_of_next h
  refine ⟨t, ht, ?_, hframe⟩
  rw [hu] at hretired
  exact { hretired with }

theorem retires_mtc0 {s u : State} (hu : copUsable 0 s = true) {rt rd : Reg} (hread : canReadAll s [rt] = true)
    (hwrite : cop0Write rd (s.reg rt) s = .ok u) : ∃ t, exec (.mtc0 rt rd) s = .next t ∧ Retired {} s t ∧ CpuFrame u t := by
  have hrun : exec (.mtc0 rt rd) s = .next (retire {} u) := by
    rw [exec_of_usable (i := .mtc0 rt rd) rfl hu, hread, afterRead_true, hwrite]
  refine retires_of_cop0Frame hrun ?_
  rw [cop0Write_frame hwrite]

theorem mtc0_refused {s : State} (hu : copUsable 0 s = true) {rt rd : Reg} (hread : canReadAll s [rt] = true) {r : Refusal}
    (hwrite : cop0Write rd (s.reg rt) s = .error r) : exec (.mtc0 rt rd) s = .refused r := by
  rw [exec_of_usable (i := .mtc0 rt rd) rfl hu, hread, afterRead_true, hwrite]

theorem cop0Write_of_ge {rd : Reg} (h : 16 ≤ rd.toNat) (v : Word) (s : State) : cop0Write rd v s = .error .refuseCop0Reg := by
  unfold cop0Write
  split
  case h_12 => rfl
  all_goals omega

/-- Settles O37: `cop0Write` at each number; the instruction retires in the state it leaves. -/
theorem moveToCop0Results : Obligations.MoveToCop0Results := by
  intro s rt rd husable hread v
  have hu : copUsable 0 s = true := copUsable_zero husable
  refine ⟨decodeOfEncode (.mtc0 rt rd), fun row hrow => retires_mtc0 hu hread ?values,
    fun h0 => retires_mtc0 hu hread (if_pos h0), fun h0 => mtc0_refused hu hread (if_neg h0),
    fun r hr => mtc0_refused hu hread ?none, fun r hr => mtc0_refused hu hread (cop0Write_of_ge hr v s)⟩
  case values =>
    revert row
    simp only [List.forall_mem_cons]
    exact ⟨rfl, rfl, rfl, rfl, rfl, rfl, rfl, rfl, rfl, rfl, List.forall_mem_nil _⟩
  case none =>
    revert r
    simp only [List.forall_mem_cons]
    exact ⟨rfl, rfl, rfl, rfl, rfl, List.forall_mem_nil _⟩

/-- RFE uses only op, bit 25 and funct of its word. -/
theorem decode_rfe (x : BitVec 19) : decode (0x10#6 ++ 1#1 ++ x ++ 0x10#6) = .instr .rfe := by
  apply decode_eq_of_usedBits
  apply BitVec.eq_of_getLsbD_eq
  intro i hi
  simp only [Instr.unusedBits, encode, BitVec.getLsbD_and, BitVec.getLsbD_append]
  interval_cases i <;> simp

theorem popMode_stack (sr : Word) : (popMode sr).extractLsb' 0 4 = sr.extractLsb' 2 4 := BitVec.extractLsb'_append_eq_right

theorem popMode_status (sr : Word) : (popMode sr).extractLsb' 4 28 = sr.extractLsb' 4 28 := BitVec.extractLsb'_append_eq_left

/-- Settles O38: past the check RFE retires in `leaveException s`; it retires as class Other does, since COP0 is none of `Retired`. -/
theorem returnFromExceptionResult : Obligations.ReturnFromExceptionResult := by
  refine ⟨decode_rfe, rfl, fun s => ⟨fun husable => ?usable, fun hk hc hnest => ?unusable⟩⟩
  case usable =>
    have hrun : exec .rfe s = .next (retire {} (leaveException s)) := exec_of_usable rfl (copUsable_zero husable)
    obtain ⟨t, ht, hretired, hframe⟩ := retires_of_cop0Frame hrun rfl
    have hsr : t.sr = popMode s.sr := congrArg (·.sr) hframe.only
    have hdepth : t.excDepth = shallower s.excDepth := congrArg (·.excDepth) hframe.only
    refine ⟨t, ht, hretired, ?_, ?_, ?_, ?_⟩ <;> simp only [hsr, hdepth]
    · exact popMode_stack s.sr
    · exact popMode_status s.sr
    · rfl
    · exact hframe
  case unusable =>
    exact takes_cpU rfl (copUsable_zero_eq_false hk hc) hnest

/-- Settles O39: every row is the check of its coprocessor; past it the groups have nothing but a refusal. -/
theorem coprocessorUsability : Obligations.CoprocessorUsability := by
  intro s rt rd base off f usable
  simp only [usable, ← copUsable_iff, Bool.not_eq_true, List.forall_mem_cons]
  refine ⟨?unusable, ?usable⟩
  case unusable =>
    have enter : ∀ {i : Instr} {z : BitVec 2} {run : Result}, exec i s = ifUsable z s run → copUsable z s = false →
        nestOk s = true → Takes (.cpU z) 11 i s := takes_cpU
    exact ⟨enter rfl, enter rfl, enter rfl, enter rfl, enter rfl, enter rfl, enter rfl, enter rfl, enter rfl, enter rfl, enter rfl,
      enter rfl, enter rfl, enter rfl, List.forall_mem_nil _⟩
  case usable =>
    have refuse : ∀ {i : Instr} {z : BitVec 2}, exec i s = copGroup z s → copUsable z s = true → exec i s = .refused .refuseCopz :=
      exec_of_usable
    exact ⟨refuse rfl, refuse rfl, refuse rfl, refuse rfl, refuse rfl, refuse rfl, refuse rfl, refuse rfl, refuse rfl, refuse rfl,
      refuse rfl, List.forall_mem_nil _⟩

/-- Settles O40: both enter their exception at once, and the encoding keeps the code field. -/
theorem systemInstructions : Obligations.SystemInstructions := fun _ code hnest =>
  ⟨decodeOfEncode (.syscall code), decodeOfEncode (.brk code), enterException_entered .sys hnest, enterException_entered .bp hnest⟩

end Sys2Proof.Machine
end

section
/-! SUPPORT. Exception entry (60_exceptions R350 to R356): the nesting check, the push of the mode stack, and the two places EPC can
name. -/

namespace Sys2Proof.Machine

/-- Settles O41: where the nesting check lets it proceed, the entry is `excEntry_entered`. -/
theorem exceptionEntry : Obligations.ExceptionEntry := by
  intro s x hnest
  cases x <;> exact enterException_entered _ hnest

theorem nestOk_of_shallow {s : State} (h : s.excDepth.val < 2) : nestOk s = true := by simp [nestOk, h]

theorem nestOk_of_discardOldest {s : State} (h : s.cfg.nestPolicy = .discardOldest) : nestOk s = true := by simp [nestOk, h]

/-- With two entries open and NEST_OVERFLOW = fault no entry is made (60_exceptions R356). -/
theorem enterException_of_nestOverflow {s : State} (x : Exc) (hd : s.excDepth = 2) (hp : s.cfg.nestPolicy = .fault) :
    enterException x s = .fault .nestOverflow := if_pos ⟨hd, hp⟩

/-- After the push kernel mode is current with interrupts disabled (60_exceptions R350). -/
theorem pushMode_current (sr : Word) : (pushMode sr).getLsbD 0 = false ∧ (pushMode sr).getLsbD 1 = false := by
  simp only [pushMode, BitVec.getLsbD_append]
  simp

/-- The current and the previous pair become the previous and the old one (60_exceptions R354). -/
theorem pushMode_pushed (sr : Word) : (pushMode sr).extractLsb' 2 4 = sr.extractLsb' 0 4 :=
  (BitVec.extractLsb'_append_eq_of_le (by decide)).trans BitVec.extractLsb'_append_eq_right

/-- The previous pair becomes the old one, so the old one is lost (60_exceptions R354, R356). -/
theorem pushMode_old (sr : Word) : (pushMode sr).extractLsb' 4 2 = sr.extractLsb' 2 2 := by
  rw [pushMode, BitVec.extractLsb'_append_eq_of_le (by decide), BitVec.extractLsb'_append_eq_of_add_le (by decide),
    BitVec.extractLsb'_extractLsb'_of_le (by decide)]

/-- Settles O42: `enterException_of_nestOk` below the limit and under discard_oldest, `enterException_of_nestOverflow` otherwise. -/
theorem nestedEntryBeyondTwo : Obligations.NestedEntryBeyondTwo := by
  refine fun s x => ⟨fun hlt => ?proceeds, fun hd hp => enterException_of_nestOverflow x hd hp, fun hd hp => ?discards⟩
  case proceeds =>
    refine ⟨_, enterException_of_nestOk x (nestOk_of_shallow hlt), ?_⟩
    exact Nat.min_eq_left hlt
  case discards =>
    refine ⟨_, enterException_of_nestOk x (nestOk_of_discardOldest hp), ?_, pushMode_old s.sr⟩
    rw [excEntry_excDepth, hd]
    rfl

/-- EPC names the instruction, or the branch whose delay slot it is in (60_exceptions R352). -/
theorem excEntry_epc_cases (x : Exc) (s : State) : (excEntry x s).epc = s.pc ∨ (excEntry x s).epc = s.pc - 4 := by
  rw [excEntry_epc]
  split
  · exact .inr rfl
  · exact .inl rfl

end Sys2Proof.Machine
end

section
/-! SUPPORT. Interrupt requests (60_exceptions R370 to R378): IrqRequest bit by bit, and what raising a line does to it. -/

namespace Sys2Proof.Machine

/-! IrqRequest (R376). -/

/-- Two words have a bit in common. -/
theorem and_bne_zero_iff {w : Nat} {x y : BitVec w} :
    (x &&& y != 0) = true ↔ ∃ i : Fin w, x.getLsbD i.val = true ∧ y.getLsbD i.val = true := by
  rw [bne_iff_ne, ← not_iff_not, not_not, not_exists, BitVec.eq_of_getLsbD_eq_iff, Fin.forall_iff]
  simp

/-- The controller's output: a line is pending and not masked (60_exceptions R370). -/
theorem irqLine_iff {s : State} :
    irqLine s = true ↔ ∃ l : Line, s.iStat.getLsbD l.val = true ∧ s.iMask.getLsbD l.val = true := and_bne_zero_iff

/-- The bits of IP: bit 2 is the controller's output, bits 1 and 0 are stored, the others are 0 (10_state R38). -/
theorem pendingIP_getLsbD {s : State} {i : Nat} : (pendingIP s).getLsbD i = true ↔
    (i = 2 ∧ irqLine s = true) ∨ (i = 1 ∧ s.cause.ip.getLsbD 1 = true) ∨ (i = 0 ∧ s.cause.ip.getLsbD 0 = true) := by
  simp only [pendingIP, BitVec.getLsbD_append]
  rcases i with _ | _ | _ | i <;> simp

/-- IrqRequest in the words of 60_exceptions R376, with the controller's output as one bit. -/
theorem irqRequest_iff {s : State} : irqRequest s = true ↔
    s.sr.getLsbD 0 = true ∧
      ((s.sr.getLsbD 10 = true ∧ irqLine s = true) ∨ (s.sr.getLsbD 9 = true ∧ s.cause.ip.getLsbD 1 = true) ∨
        (s.sr.getLsbD 8 = true ∧ s.cause.ip.getLsbD 0 = true)) := by
  have mask : ∀ i : Fin 8, (srIM s).getLsbD i.val = s.sr.getLsbD (8 + i.val) := fun i => by simp [srIM]
  simp only [irqRequest, srIEc, Bool.and_eq_true, and_bne_zero_iff, pendingIP_getLsbD, mask]
  refine and_congr_right fun _ => ⟨?_, ?_⟩
  · rintro ⟨⟨i, _⟩, ⟨rfl, hline⟩ | ⟨rfl, hip⟩ | ⟨rfl, hip⟩, hmask⟩
    · exact .inl ⟨hmask, hline⟩
    · exact .inr (.inl ⟨hmask, hip⟩)
    · exact .inr (.inr ⟨hmask, hip⟩)
  · rintro (⟨hmask, hline⟩ | ⟨hmask, hip⟩ | ⟨hmask, hip⟩)
    · exact ⟨2, .inl ⟨rfl, hline⟩, hmask⟩
    · exact ⟨1, .inr (.inl ⟨rfl, hip⟩), hmask⟩
    · exact ⟨0, .inr (.inr ⟨rfl, hip⟩), hmask⟩

/-- Settles O7: `irqRequest_iff`, with the controller's output by `irqLine_iff`. -/
theorem interruptRequestCondition : Obligations.InterruptRequestCondition := by
  intro s
  rw [irqRequest_iff, irqLine_iff]

/-! Raising lines (R372, R378). -/

theorem raiseLine_getLsbD (l : Line) (s : State) (k : Line) :
    (raiseLine l s).iStat.getLsbD k.val = (s.iStat.getLsbD k.val || decide (k = l)) := by
  simp [Fin.ext_iff, eq_comm]

theorem foldr_raiseLine_getLsbD (ls : List Line) (s : State) (k : Line) :
    (ls.foldr raiseLine s).iStat.getLsbD k.val = (s.iStat.getLsbD k.val || decide (k ∈ ls)) := by
  induction ls with
  | nil => simp
  | cons l ls ih =>
    simp only [List.foldr_cons, raiseLine_getLsbD, ih, List.mem_cons, Bool.decide_or, Bool.or_assoc, Bool.or_comm (decide (k = l))]

/-- Raising a masked line leaves the controller's output as it was. -/
theorem irqLine_raiseLine_of_masked {l : Line} {s : State} (h : s.iMask.getLsbD l.val = false) :
    irqLine (raiseLine l s) = irqLine s := by
  rw [Bool.eq_iff_iff, irqLine_iff, irqLine_iff]
  refine exists_congr fun k => ?_
  rw [raiseLine_getLsbD, raiseLine_iMask]
  by_cases hk : k = l
  · rw [hk, h]
    simp
  · simp [hk]

/-- With the mask bit of a raised line set the controller's output is 1. -/
theorem irqLine_setIMask_raiseLine {l : Line} {v : Word} (h : v.getLsbD l.val = true) (s : State) :
    irqLine (setIMask v (raiseLine l s)) = true := by
  refine irqLine_iff.2 ⟨l, ?_, ?_⟩
  · rw [setIMask_iStat, raiseLine_getLsbD, decide_eq_true rfl, Bool.or_true]
  · rw [setIMask_iMask, BitVec.getLsbD_setWidth, h, Bool.and_true]
    exact decide_eq_true l.isLt

/-- Settles O43: bit by bit; a masked line leaves `irqLine` alone, and an unmasked one sets it. -/
theorem raisedLines : Obligations.RaisedLines := by
  refine fun s l ls v => ⟨raiseLine_getLsbD l s, rfl, foldr_raiseLine_getLsbD ls s,
    fun hie him hline hsoft hmasked hv => ⟨?masked, ?unmasked⟩⟩
  case masked =>
    have soft : ∀ i : Fin 2, s.cause.ip.getLsbD i.val = true → s.sr.getLsbD (8 + i.val) = true → False := by
      intro i hip hsr
      have hmask : (s.sr.extractLsb' 8 2).getLsbD i.val = true := by
        simp only [BitVec.getLsbD_extractLsb', i.isLt, decide_true, hsr, Bool.and_self]
      have common : (s.cause.ip &&& s.sr.extractLsb' 8 2 != 0) = true := and_bne_zero_iff.2 ⟨i, hip, hmask⟩
      simp [hsoft] at common
    rw [Bool.eq_false_iff, Ne, irqRequest_iff, irqLine_raiseLine_of_masked hmasked]
    rintro ⟨-, ⟨-, hirq⟩ | ⟨hsr, hip⟩ | ⟨hsr, hip⟩⟩
    · simp [irqLine, hline] at hirq
    · exact soft 1 hip hsr
    · exact soft 0 hip hsr
  case unmasked =>
    exact irqRequest_iff.2 ⟨hie, .inl ⟨him, irqLine_setIMask_raiseLine hv s⟩⟩

end Sys2Proof.Machine
end

section
/-! SUPPORT. COP0 out of reach (45_cop_system R319, 60_exceptions R362): how a CPU step ends where COP0 is not usable, said once. It
enters an exception, or retires an instruction, in a state that differs from the one it began in by bus accesses only. -/

namespace Sys2Proof.Machine

theorem busFrame_trans {s u t : State} (hu : BusFrame s u) (ht : BusFrame u t) : BusFrame s t := by
  rw [hu] at ht
  exact ht

theorem storeBytes_frame {a : Word} {bs : List (Nat × Byte)} {r : Word} {s u : State} (h : storeBytes a bs r s = .ok u) :
    BusFrame s u := by
  unfold storeBytes at h
  split at h
  · exact memWrite_frame h
  · exact writeEach_preserves (P := BusFrame s) (fun hw hp => busFrame_trans hp (memWrite_frame hw)) h rfl

/-- The end of an instruction, or of a CPU step, that reaches COP0 by an exception entry only. -/
inductive EndsOutsideCop0 (s : State) : State → Prop
  | enters (x : Exc) {u : State} (bus : BusFrame s u) : EndsOutsideCop0 s (excEntry x u)
  | retires (e : Effect) {u : State} (bus : BusFrame s u) : EndsOutsideCop0 s (retire e u)

section
variable {s t u : State}

theorem EndsOutsideCop0.after (hu : BusFrame s u) (h : EndsOutsideCop0 u t) : EndsOutsideCop0 s t := by
  cases h with
  | enters x bus => exact .enters x (busFrame_trans hu bus)
  | retires e bus => exact .retires e (busFrame_trans hu bus)

theorem endsOutsideCop0_of_enter {x : Exc} (h : enterException x s = .next t) : EndsOutsideCop0 s t :=
  enterException_next h ▸ .enters x rfl

theorem endsOutsideCop0_of_retire {e : Effect} (bus : BusFrame s u) (h : (.next (retire e u) : Result) = .next t) :
    EndsOutsideCop0 s t :=
  Host.Outcome.next.inj h ▸ .retires e bus

theorem endsOutsideCop0_of_retireUnless {o : Bool} {r : Reg} {v : Word} (h : retireUnless o r v s = .next t) :
    EndsOutsideCop0 s t := by
  unfold retireUnless at h
  split at h
  · exact endsOutsideCop0_of_enter h
  · exact endsOutsideCop0_of_retire rfl h

theorem endsOutsideCop0_of_checkHiLo {ok : Bool} {e : Effect} (h : checkHiLo s (afterRead ok (.next (retire e s))) = .next t) :
    EndsOutsideCop0 s t := by
  unfold checkHiLo at h
  split at h
  · simp at h
  · exact endsOutsideCop0_of_retire rfl (afterRead_next h).2

theorem endsOutsideCop0_of_loadVia {chk w : Width} {ea a : Word} {rt : Reg} {m : Bool} {f : Word → Word}
    (h : loadVia chk w ea a rt m f s = .next t) : EndsOutsideCop0 s t := by
  unfold loadVia at h
  split at h
  · exact endsOutsideCop0_of_enter h
  · split at h
    · simp at h
    · split at h
      · simp at h
      · next hr => exact endsOutsideCop0_of_retire (memRead_frame hr) (afterRead_next h).2

theorem endsOutsideCop0_of_storeVia {chk : Width} {ea : Word} {rt : Reg} {put : State → Except Fault State}
    (hput : ∀ u, put s = .ok u → BusFrame s u) (h : storeVia chk ea rt put s = .next t) : EndsOutsideCop0 s t := by
  unfold storeVia at h
  split at h
  · exact endsOutsideCop0_of_enter h
  · split at h
    · exact endsOutsideCop0_of_retire rfl h
    · have h := (afterRead_next h).2
      split at h
      · simp at h
      · next u hu => exact endsOutsideCop0_of_retire (hput u hu) h

/-- A link branch is stopped by its check (43_branch_jump R264) or retires. -/
theorem endsOutsideCop0_of_linkCheck {p : Prop} [Decidable p] {ok : Bool} {r : Reg} {target : Word}
    (h : (if p then .fault .linkSameReg else afterRead ok (scheduleLink r target s)) = .next t) : EndsOutsideCop0 s t := by
  split at h
  · simp at h
  · exact endsOutsideCop0_of_retire rfl (afterRead_next h).2

theorem endsOutsideCop0_of_unusable {z : BitVec 2} {run : Result} (hu : copUsable z s = false)
    (h : ifUsable z s run = .next t) : EndsOutsideCop0 s t := by
  rw [ifUsable, if_neg (Bool.eq_false_iff.1 hu)] at h
  exact endsOutsideCop0_of_enter h

/-- What is refused where its coprocessor is usable enters CpU where it is not. -/
theorem endsOutsideCop0_of_refused {z : BitVec 2} {r : Refusal} (h : ifUsable z s (.refused r) = .next t) :
    EndsOutsideCop0 s t := by
  cases hu : copUsable z s with
  | true => simp [ifUsable, hu] at h
  | false => exact endsOutsideCop0_of_unusable hu h

/-- Where COP0 is not usable, every instruction ends so: MFC0, MTC0 and RFE do not get past their check. -/
theorem exec_endsOutsideCop0 {i : Instr} (hc : copUsable 0 s = false) (h : exec i s = .next t) : EndsOutsideCop0 s t := by
  cases i with
  | add | sub | addi => exact endsOutsideCop0_of_retireUnless (afterRead_next h).2
  | j | jal | lui => exact endsOutsideCop0_of_retire rfl h
  | jalr | bltzal | bgezal => exact endsOutsideCop0_of_linkCheck h
  | mult | multu | div | divu | mthi | mtlo => exact endsOutsideCop0_of_checkHiLo h
  | lb | lbu | lh | lhu | lw | lwl | lwr => exact endsOutsideCop0_of_loadVia (afterRead_next h).2
  | sb | sh | sw => exact endsOutsideCop0_of_storeVia (fun _ => memWrite_frame) (afterRead_next h).2
  | swl | swr => exact endsOutsideCop0_of_storeVia (fun _ => storeBytes_frame) (afterRead_next h).2
  | mfc0 | mtc0 | rfe => exact endsOutsideCop0_of_unusable hc h
  | cop1 | cop2 | cop3 | lwc0 | lwc1 | lwc2 | lwc3 | swc0 | swc1 | swc2 | swc3 => exact endsOutsideCop0_of_refused h
  | syscall | brk => exact endsOutsideCop0_of_enter h
  | _ => exact endsOutsideCop0_of_retire rfl (afterRead_next h).2

theorem runDecoded_endsOutsideCop0 {d : Decoded} (hc : copUsable 0 s = false) (h : runDecoded d s = .next t) :
    EndsOutsideCop0 s t := by
  cases d with
  | reserved => exact endsOutsideCop0_of_enter h
  | otherRegimm => simp [runDecoded] at h
  | otherCop0 => exact endsOutsideCop0_of_refused h
  | instr i =>
    simp only [runDecoded] at h
    split at h
    · simp at h
    · exact exec_endsOutsideCop0 hc h

/-- So does the CPU step around it: the fetch leaves SR alone. -/
theorem fetchAndRun_endsOutsideCop0 (hc : copUsable 0 s = false) (h : fetchAndRun s = .next t) : EndsOutsideCop0 s t := by
  unfold fetchAndRun at h
  split at h
  · exact endsOutsideCop0_of_enter h
  · split at h
    · exact endsOutsideCop0_of_enter h
    · split at h
      · simp at h
      · next w u hr =>
        have bus := memRead_frame hr
        have hcu : copUsable 0 u = false := by rw [bus]; exact hc
        exact (runDecoded_endsOutsideCop0 hcu h).after bus

end

/-- Settles O59: a CPU step ends as `EndsOutsideCop0` says; an entry pushes the mode stack, a retire leaves COP0 alone. -/
theorem userModeCannotChangeCop0 : Obligations.UserModeCannotChangeCop0 := by
  intro s t huser hcu h
  have hc : copUsable 0 (beginCpu s) = false := copUsable_zero_eq_false huser hcu
  cases fetchAndRun_endsOutsideCop0 hc h with
  | @retires e u bus =>
    rw [bus]
    exact ⟨rfl, rfl, rfl, rfl, rfl, rfl, .inl ⟨rfl, rfl, rfl, rfl, rfl⟩⟩
  | @enters x u bus =>
    obtain ⟨hIEc, hKUc⟩ := pushMode_current s.sr
    have hepc := excEntry_epc_cases x u
    have hvector : (excEntry x u).pc = 0x80000080#32 ∨ (excEntry x u).pc = 0xBFC00180#32 := excVector_cases u
    rw [bus] at hepc hvector ⊢
    exact ⟨rfl, rfl, rfl, rfl, rfl, rfl, .inr ⟨hIEc, hKUc, pushMode_pushed s.sr, pushMode_status s.sr, hepc, hvector⟩⟩

end Sys2Proof.Machine
end

section
/-! SUPPORT. How a DMA channel's transfer begins and ends (65_dma R410, R426, R430): a completion and a transfer fault as one update of
the state each, what a unit leaves in DICR, I_STAT and the other channels, and the write of CHCR[n]. -/

namespace Sys2Proof.Machine

theorem not_startBit : ~~~startBit = 0xFEFFFFFF#32 := rfl

theorem not_startBit_or_triggerBit : ~~~(startBit ||| triggerBit) = 0xEEFFFFFF#32 := rfl

/-! Channels. -/

theorem otherChans_setChan (n : Chan) (c : Channel) (s : State) : otherChans n s (setChan n c s) := fun m hm => by
  rw [chan_setChan, if_neg (Ne.symm hm)]

theorem chan_setChan_same (n : Chan) (c : Channel) (s : State) : (setChan n c s).chan n = c := by
  rw [chan_setChan, if_pos rfl]

theorem chan_transferFault (n : Chan) (r : DmaFault) (s : State) : (transferFault n r s).chan n = (s.chan n).failed r :=
  chan_setChan_same n _ s

/-! Completion (R426). -/

theorem complete_eq (n : Chan) (s : State) : complete n s = { s with
    dma := (setChan n (s.chan n).finished s).dma
    dicr := s.dicr.setFlag n
    iStat := if s.dicr.ie.getLsbD n.val = true ∧ s.dicr.mie = true then s.iStat ||| 8#11 else s.iStat } := by
  simp only [complete, Bool.and_eq_true]
  split <;> rfl

@[simp] theorem complete_mem (n : Chan) (s : State) : (complete n s).mem = s.mem := by rw [complete_eq]

@[simp] theorem complete_draws (n : Chan) (s : State) : (complete n s).draws = s.draws := by rw [complete_eq]

@[simp] theorem complete_emitted (n : Chan) (s : State) : (complete n s).emitted = s.emitted := by rw [complete_eq]

theorem complete_chan (n m : Chan) (s : State) : (complete n s).chan m = (setChan n (s.chan n).finished s).chan m := by
  rw [complete_eq]
  rfl

theorem complete_chan_same (n : Chan) (s : State) : (complete n s).chan n = (s.chan n).finished := by
  rw [complete_chan, chan_setChan_same]

theorem otherChans_complete (n : Chan) (s : State) : otherChans n s (complete n s) := fun m hm => by
  rw [complete_chan, otherChans_setChan n _ s m hm]

theorem setFlag_getLsbD (d : Dicr) (n m : Chan) : (d.setFlag n).flag.getLsbD m.val = (d.flag.getLsbD m.val || decide (m = n)) := by
  simp [Dicr.setFlag, Fin.ext_iff, eq_comm]

/-- A completion is noted as R426 says, also against an earlier state with the same DICR and I_STAT. -/
theorem completionNoted_complete {s u : State} (n : Chan) (h : NothingNoted s u) : CompletionNoted n s (complete n u) := by
  obtain ⟨hdicr, hstat⟩ := h
  rw [complete_eq, hdicr, hstat]
  exact ⟨setFlag_getLsbD s.dicr n, rfl, rfl⟩

/-- Settles O51: `complete_eq` and the definition of a transfer fault. -/
theorem dmaEndings : Obligations.DmaEndings := by
  intro s n r c t u
  refine ⟨⟨complete_chan_same n s, otherChans_complete n s, completionNoted_complete n ⟨rfl, rfl⟩, ?_⟩,
    ⟨chan_transferFault n r s, otherChans_setChan n _ s, rfl⟩, fun hsync => ?_⟩
  · rw [show t = _ from complete_eq n s]
  · have hsync : chcrSync (s.chan n).chcr = 3 := hsync
    rw [dmaUnit, hsync]
    rfl

/-! A write of CHCR[n] (R410). -/

/-- The channel a write leaves whose CHCR becomes `chcr`: of an active channel by a change of direction or mode and by the new START, of
an idle one by a rise of START (R410, R432, R434). -/
def Channel.rewritten (chcr : Word) (old : Channel) : Channel :=
  let c := { old with chcr := chcr }
  if old.active then
    if chcr.getLsbD 0 ≠ old.chcr.getLsbD 0 ∨ chcr.extractLsb' 9 2 ≠ old.chcr.extractLsb' 9 2 then c.failed .modeChange
    else if chcr.getLsbD 24 then c
    else { c with active := false }
  else if old.chcr.getLsbD 24 = false ∧ chcr.getLsbD 24 = true then c.begun
  else c

/-- A write of CHCR[n] is one update of channel n. -/
theorem writeChcr_eq (n : Chan) (v : Word) (s : State) :
    writeChcr n v s = setChan n ((s.chan n).rewritten (chcrValue n v)) s := by
  simp only [writeChcr, Channel.rewritten, transferFault, chan_setChan_same, setChan_setChan, chcrDir, chcrSync, chcrStart,
    Bool.and_eq_true, Bool.or_eq_true, bne_iff_ne, Bool.not_eq_true']
  cases (s.chan n).active with
  | false => simp only [Bool.false_eq_true, false_and, if_false, true_and, apply_ite (setChan n · s)]
  | true =>
    cases (chcrValue n v).getLsbD 24 <;>
      simp only [reduceCtorEq, Bool.false_eq_true, true_and, false_and, if_true, if_false, apply_ite (setChan n · s)]

/-- Settles O48: `writeChcr_eq`, the outcome picked by its conditions. -/
theorem channelControlWrite : Obligations.ChannelControlWrite := by
  intro s n v old new changed stopped t
  have ht : t = setChan n (old.rewritten new) s := writeChcr_eq n v s
  have chan : t.chan n = old.rewritten new := ht ▸ chan_setChan_same n _ s
  refine ⟨ht ▸ otherChans_setChan n _ s, by rw [ht]; rfl, fun ha hc => ?_, fun ha hc hs => ?_, fun ha hc hs => ?_,
    fun ha ho hs => ?_, fun ha h => ?_⟩ <;> rw [chan, Channel.rewritten]
  · exact (if_pos ha).trans (if_pos hc)
  · exact (if_pos ha).trans ((if_neg hc).trans (if_neg (ne_true_of_eq_false hs)))
  · exact (if_pos ha).trans ((if_neg hc).trans (if_pos hs))
  · exact (if_neg (ne_true_of_eq_false ha)).trans (if_pos ⟨ho, hs⟩)
  · have still : ¬(old.chcr.getLsbD 24 = false ∧ new.getLsbD 24 = true) := fun ⟨ho, hs⟩ =>
      h.elim (ne_true_of_eq_false ho) (ne_false_of_eq_true hs)
    exact (if_neg (ne_true_of_eq_false ha)).trans (if_neg still)

end Sys2Proof.Machine
end

section
/-! SUPPORT. CPU writes of the DMA registers (65_dma R409 to R412), and DICR as a word by its fields (10_state R55). -/

namespace Sys2Proof.Machine

/-! The fields of DICR. -/

theorem dicr_word_low (d : Dicr) : d.word.extractLsb' 0 6 = d.unk := BitVec.extractLsb'_append_eq_right

theorem dicr_word_zero (d : Dicr) : d.word.extractLsb' 6 9 = 0 :=
  (BitVec.extractLsb'_append_eq_of_le (Nat.le_refl 6)).trans BitVec.extractLsb'_append_eq_right

/-- FORCE, IE and MIE lie side by side. -/
theorem dicr_word_enables (d : Dicr) : d.word.extractLsb' 15 9 = BitVec.ofBool d.mie ++ d.ie ++ BitVec.ofBool d.force := by
  apply BitVec.eq_of_getLsbD_eq
  intro i hi
  simp only [Dicr.word, BitVec.getLsbD_extractLsb', BitVec.getLsbD_append]
  interval_cases i <;> simp

theorem dicr_word_flag (d : Dicr) : d.word.extractLsb' 24 7 = d.flag := by
  simp (disch := decide) only [Dicr.word, BitVec.extractLsb'_append_eq_of_le, Nat.reduceSub, BitVec.extractLsb'_append_eq_right]

theorem dicr_word_mflag (d : Dicr) : d.word.getLsbD 31 = d.mflag := by
  simp only [Dicr.word, BitVec.getLsbD_append]
  simp

/-- A field of one bit. -/
theorem extractLsb'_one (v : Word) (k : Nat) : v.extractLsb' k 1 = BitVec.ofBool (v.getLsbD k) := by
  ext i hi
  simp [show i = 0 by omega]

theorem word_enables (v : Word) :
    v.extractLsb' 15 9 = BitVec.ofBool (v.getLsbD 23) ++ v.extractLsb' 16 7 ++ BitVec.ofBool (v.getLsbD 15) := by
  rw [← extractLsb'_one, ← extractLsb'_one,
    BitVec.extractLsb'_append_extractLsb'_eq_extractLsb' (show 23 = 16 + 7 from rfl),
    BitVec.extractLsb'_append_extractLsb'_eq_extractLsb' (show 16 = 15 + 1 from rfl)]

/-! The writes. -/

theorem writeDicr_eq (v : Word) (s : State) : writeDicr v s = { s with
    dicr := dicrValue s.dicr v
    iStat := if s.dicr.mflag = false ∧ (dicrValue s.dicr v).mflag = true then s.iStat ||| 8#11 else s.iStat } := by
  simp only [writeDicr, Bool.and_eq_true, Bool.not_eq_true']
  split <;> rfl

theorem dmaRegStore_busCalls (r : DmaReg) (v : Word) (s : State) : (dmaRegStore r v s).busCalls = s.busCalls := by
  cases r with
  | chcr n => rw [dmaRegStore, writeChcr_eq, setChan_busCalls]
  | dicr => rw [dmaRegStore, writeDicr_eq]
  | _ => rfl

/-- A word write of a DMA register: its own rule, and one counted bus call. -/
theorem memWrite_dmaReg {s : State} {x : Word} (r : DmaReg) (hx : Direct x (0x1F801080 + r.offset)) (v : Word) :
    memWrite x .b32 v s =
      .ok { dmaRegStore r v s with cycles := s.cycles + latencyOf .dma, busCalls := s.busCalls + 1 } := by
  have hr := r.offset_lt
  have hat : dmaRegAt r.offset = some r := dmaRegAt_offset r (k := 0) (by decide)
  rw [memWrite_dma hx (by omega), dmaWrite, hat, ← dmaRegStore_cycles r v s, ← dmaRegStore_busCalls r v s]
  rfl

/-- Settles O49: `memWrite_dmaReg` at each register's offset, and `writeDicr_eq` with the fields of DICR. -/
theorem dmaRegisterWrites : Obligations.DmaRegisterWrites := by
  intro s n v seg hseg chan call t
  have madr : Direct chan (0x1F801080 + 16 * n.val) := direct_channel hseg n
  have ht : t = _ := writeDicr_eq v s
  have hdicr : t.dicr = dicrValue s.dicr v := by rw [ht]
  refine ⟨memWrite_dmaReg (.madr n) madr v, memWrite_dmaReg (.bcr n) (madr.channelReg (k := 4) (by decide)) v,
    memWrite_dmaReg (.chcr n) (madr.channelReg (k := 8) (by decide)) v,
    memWrite_dmaReg .dpcr (direct_add_segment hseg (by decide)) v, memWrite_dmaReg .dicr (direct_add_segment hseg (by decide)) v,
    ?_, ?_, dicr_word_zero _, ?_, ?_, by rw [ht], ?_⟩
  · rw [dicr_word_flag, dicr_word_flag, hdicr, dicrValue]
  · rw [dicr_word_enables, word_enables, hdicr, dicrValue]
  · rw [dicr_word_low, hdicr, dicrValue]
  · rw [dicr_word_mflag, hdicr]
    rfl
  · rw [dicr_word_mflag, dicr_word_mflag, ht]

end Sys2Proof.Machine
end

section
/-! SUPPORT. DMA scheduling (65_dma R416 to R419): what makes a channel serviceable, and the order of the PlayStation-1 arbiter. -/

namespace Sys2Proof.Machine

theorem serviceable_iff (s : State) (n : Chan) : serviceable s n = true ↔
    (s.chan n).active = true ∧ (s.chan n).chcr.getLsbD 24 = true ∧ s.dpcr.getLsbD (4 * n.val + 3) = true ∧
      (((s.chan n).chcr.extractLsb' 9 2 = 0 ∧ (s.chan n).chcr.getLsbD 28 = true) ∨
        ((s.chan n).chcr.extractLsb' 9 2 = 1 ∧ (s.dmaReady.get n = true ∨ n = 6)) ∨
        ((s.chan n).chcr.extractLsb' 9 2 = 2 ∧ s.dmaReady.get n = true) ∨ (s.chan n).chcr.extractLsb' 9 2 = 3) := by
  simp only [serviceable, Bool.and_eq_true, and_assoc, chcrStart, dpcrEnable, chcrTrigger, chcrSync]
  refine and_congr_right fun _ => and_congr_right fun _ => and_congr_right fun _ => ?_
  generalize (s.chan n).chcr.extractLsb' 9 2 = sync
  have modes : ∀ m : BitVec 2, m = 0 ∨ m = 1 ∨ m = 2 ∨ m = 3 := by decide
  rcases modes sync with rfl | rfl | rfl | rfl <;> simp

theorem mem_serviceableChans {s : State} {n : Chan} : n ∈ serviceableChans s ↔ serviceable s n = true := by
  have all : ∀ n : Chan, n ∈ ([0, 1, 2, 3, 4, 5, 6] : List Chan) := by decide
  exact List.mem_filter.trans (and_iff_right (all n))

theorem arbitrate_isSome {cs : List Chan} (h : cs ≠ []) (a : Arbiter) (dpcr : Word) : (arbitrate a dpcr cs).isSome = true := by
  match cs, a with
  | [_], _ => rfl
  | _ :: _ :: _, .ps1 => rfl
  | _ :: _ :: _, .other _ => rfl

theorem nextChan_isSome {s : State} {n : Chan} (h : serviceable s n = true) : (nextChan s).isSome = true :=
  arbitrate_isSome (List.ne_nil_of_mem (mem_serviceableChans.2 h)) _ _

/-! The PlayStation-1 order (R419). -/

/-- Channel n is served no later than m: a smaller PRI, or the same and no lower number. -/
def ServedBefore (dpcr : Word) (n m : Chan) : Prop :=
  (dpcrPriority dpcr n).toNat < (dpcrPriority dpcr m).toNat ∨
    ((dpcrPriority dpcr n).toNat = (dpcrPriority dpcr m).toNat ∧ m ≤ n)

theorem ServedBefore.refl (dpcr : Word) (n : Chan) : ServedBefore dpcr n n := .inr ⟨rfl, Nat.le_refl _⟩

theorem ServedBefore.trans {dpcr : Word} {n m k : Chan} (h : ServedBefore dpcr n m) (h' : ServedBefore dpcr m k) :
    ServedBefore dpcr n k := by
  simp only [ServedBefore, Fin.le_def] at *
  omega

theorem firstByPriority_servedBefore (dpcr : Word) (n m : Chan) :
    ServedBefore dpcr (firstByPriority dpcr n m) n ∧ ServedBefore dpcr (firstByPriority dpcr n m) m := by
  simp only [firstByPriority, Bool.or_eq_true, Bool.and_eq_true, decide_eq_true_eq, beq_iff_eq]
  split
  · next h => exact ⟨.refl dpcr n, h.imp id (And.imp id Nat.le_of_lt)⟩
  · next h =>
    refine ⟨?_, .refl dpcr m⟩
    rw [ServedBefore, Fin.le_def]
    omega

/-- The channel the fold leaves is served before every one it saw. -/
theorem foldl_firstByPriority_servedBefore (dpcr : Word) (cs : List Chan) (n : Chan) :
    ∀ m ∈ n :: cs, ServedBefore dpcr (cs.foldl (firstByPriority dpcr) n) m := by
  induction cs generalizing n with
  | nil => exact fun m hm => List.mem_singleton.1 hm ▸ .refl dpcr m
  | cons k rest ih =>
    have first := ih (firstByPriority dpcr n k) _ List.mem_cons_self
    obtain ⟨hn, hk⟩ := firstByPriority_servedBefore dpcr n k
    simp only [List.forall_mem_cons]
    exact ⟨first.trans hn, first.trans hk, fun m hm => ih _ m (List.mem_cons_of_mem _ hm)⟩

theorem arbitrate_ps1_cons (dpcr : Word) (n : Chan) (cs : List Chan) :
    arbitrate .ps1 dpcr (n :: cs) = some (cs.foldl (firstByPriority dpcr) n) := by
  cases cs <;> rfl

theorem nextChan_servedBefore {s : State} (ha : s.cfg.arbiter = .ps1) {n m : Chan} (hn : nextChan s = some n)
    (hm : serviceable s m = true) : ServedBefore s.dpcr n m := by
  have hmem := mem_serviceableChans.2 hm
  rw [nextChan, ha] at hn
  cases hcs : serviceableChans s with
  | nil => simp [hcs] at hmem
  | cons k rest =>
    rw [hcs, arbitrate_ps1_cons, Option.some.injEq] at hn
    exact hn ▸ foldl_firstByPriority_servedBefore s.dpcr rest k m (hcs ▸ hmem)

/-- Settles O50: `serviceable_iff`, `nextChan_serviceable`, `nextChan_isSome` and `nextChan_servedBefore`. -/
theorem dmaScheduling : Obligations.DmaScheduling := fun s =>
  ⟨serviceable_iff s, fun _ => nextChan_serviceable, fun _ => nextChan_isSome, fun ha _ _ => nextChan_servedBefore ha⟩

end Sys2Proof.Machine
end

section
/-! SUPPORT. Blocks of words (65_dma R402, R420, R436): what a run of word writes leaves in memory, and a block transfer, of either
direction, and the ordering-table clear as one update of the state. -/

namespace Sys2Proof.Machine

/-! Word writes. -/

/-- Memory after the writes of `word j` at `cell j`, for `count` values of j from `i` on, in rising order. -/
def storeWords (cell : Nat → Nat) (word : Nat → Word) (count i : Nat) (m : List Host.Cell) : List Host.Cell :=
  match count with
  | 0 => m
  | k + 1 => storeWords cell word k (i + 1) (writeMem m (cell i) .b32 (word i))

section
variable {cell : Nat → Nat} {word : Nat → Word}

theorem readByte_storeWords_of_outside {count i x : Nat} {m : List Host.Cell}
    (h : ∀ j, i ≤ j → j < i + count → x < cell j ∨ cell j + 4 ≤ x) :
    readByte (storeWords cell word count i m) x = readByte m x := by
  induction count generalizing i m with
  | zero => rfl
  | succ k ih =>
    rw [storeWords, ih fun j hj hk => h j (by omega) (by omega)]
    exact readByte_writeMem_of_outside m _ x .b32 _ (h i (Nat.le_refl i) (by omega))

theorem wordAt_storeWords_of_disjoint {count i b : Nat} {m : List Host.Cell}
    (h : ∀ j, i ≤ j → j < i + count → cell j + 4 ≤ b ∨ b + 4 ≤ cell j) :
    wordAt (storeWords cell word count i m) b = wordAt m b := by
  induction count generalizing i m with
  | zero => rfl
  | succ k ih =>
    rw [storeWords, ih fun j hj hk => h j (by omega) (by omega)]
    exact wordAt_writeMem_of_disjoint m _ b _ (h i (Nat.le_refl i) (by omega))

/-- Each word reads back where no later one is written over it. -/
theorem wordAt_storeWords {count i j : Nat} {m : List Host.Cell} (hij : i ≤ j) (hj : j < i + count)
    (apart : ∀ k, j < k → k < i + count → cell k + 4 ≤ cell j ∨ cell j + 4 ≤ cell k) :
    wordAt (storeWords cell word count i m) (cell j) = word j := by
  induction count generalizing i m with
  | zero => omega
  | succ k ih =>
    rw [storeWords]
    rcases Nat.eq_or_lt_of_le hij with rfl | hlt
    · rw [wordAt_storeWords_of_disjoint fun l hl hk => apart l hl (by omega), wordAt_writeMem]
    · exact ih hlt (by omega) fun l hl hk => apart l hl (by omega)

end

/-! Block transfers. -/

/-- The cell of word j of a block (R420). -/
def blockCell (a0 step : Int) (j : Nat) : Nat := (a0 + step * j).toNat

/-- The cycles of a block are those of its first word and of the words after it. -/
theorem cycles_succ (c k : Nat) : c + (k + 1) * latencyOf .ram = c + latencyOf .ram + k * latencyOf .ram := by ring

/-- RAM to device: the words are delivered, memory is not touched. -/
theorem moveBlock_fromRam (n : Chan) (a0 step : Int) (count i : Nat) (s : State) :
    moveBlock n true a0 step count i s = { s with
      cycles := s.cycles + count * latencyOf .ram
      emitted := s.emitted ++ (List.range' i count).map fun j => .dmaWord n (wordAt s.mem (blockCell a0 step j)) } := by
  induction count generalizing i s with
  | zero => simp [moveBlock]
  | succ k ih =>
    rw [moveBlock, ih, cycles_succ, List.range'_succ, List.map_cons, List.append_cons]
    rfl

/-- Device to RAM: free values are stored one after the other. -/
theorem moveBlock_toRam (n : Chan) (a0 step : Int) (count i d : Nat) (s : State) (hd : s.draws = d + i) :
    moveBlock n false a0 step count i s = { s with
      mem := storeWords (blockCell a0 step) (fun j => Config.freeWord (d + j)) count i s.mem
      cycles := s.cycles + count * latencyOf .ram
      draws := s.draws + count } := by
  induction count generalizing i s with
  | zero => rw [Nat.zero_mul]; rfl
  | succ k ih =>
    have hnext : (moveWord n false (a0 + step * i).toNat s).draws = d + (i + 1) := congrArg (· + 1) hd
    rw [moveBlock, ih (i + 1) _ hnext, cycles_succ, storeWords, ← hd, Nat.add_comm k 1, ← Nat.add_assoc]
    rfl

/-- The clear stores the links downwards, the terminator last (R436). -/
theorem otcBlock_eq (a0 : Int) (count i total : Nat) (s : State) (ht : i + count = total) : otcBlock a0 count i s = { s with
    mem := storeWords (blockCell a0 (-4)) (fun j => otcWord (j + 1 == total) (BitVec.ofNat 32 (blockCell a0 (-4) j))) count i s.mem
    cycles := s.cycles + count * latencyOf .ram } := by
  induction count generalizing i s with
  | zero => rw [Nat.zero_mul]; rfl
  | succ k ih =>
    have hcell : (a0 - 4 * i).toNat = blockCell a0 (-4) i := by rw [blockCell, Int.neg_mul, Int.sub_eq_add_neg]
    have hlast : (k == 0) = (i + 1 == total) := by
      rw [Bool.eq_iff_iff, beq_iff_eq, beq_iff_eq]
      omega
    rw [otcBlock, ih (i + 1) _ (by omega), cycles_succ, storeWords, hcell, hlast]
    rfl

end Sys2Proof.Machine
end

section
/-! SUPPORT. A DMA unit by its sync mode (65_dma R418), and what the units of SYNC = 0 have in common (R420, R436): TRIGGER is cleared
first, then the whole block moves and the channel completes, or nothing moves and it faults. -/

namespace Sys2Proof.Machine

/-! The unit of each mode. -/

theorem dmaUnit_of_manual {n : Chan} {s : State} (h : (s.chan n).chcr.extractLsb' 9 2 = 0) :
    dmaUnit n s = if n = 6 then otcUnit s else manualUnit n s := by
  rw [dmaUnit, show chcrSync (s.chan n).chcr = 0 from h]
  rfl

theorem dmaUnit_of_request {n : Chan} {s : State} (h : (s.chan n).chcr.extractLsb' 9 2 = 1) :
    dmaUnit n s = requestUnit n s := by
  rw [dmaUnit, show chcrSync (s.chan n).chcr = 1 from h]
  rfl

theorem dmaUnit_of_linked {n : Chan} {s : State} (h : (s.chan n).chcr.extractLsb' 9 2 = 2) :
    dmaUnit n s = linkedUnit n s := by
  rw [dmaUnit, show chcrSync (s.chan n).chcr = 2 from h]
  rfl

/-! What moving words leaves, the completion after it does not touch. -/

/-- Memory, cycles, free values and delivered words are as in `u`. -/
abbrev SameMoved (u t : State) : Prop := t.mem = u.mem ∧ t.cycles = u.cycles ∧ t.draws = u.draws ∧ t.emitted = u.emitted

theorem sameMoved_complete (n : Chan) (u : State) : SameMoved u (complete n u) :=
  ⟨complete_mem n u, complete_cycles n u, complete_draws n u, complete_emitted n u⟩

theorem MoveFrame.nothingNoted {s u : State} (h : MoveFrame s u) : NothingNoted s u := by
  unfold MoveFrame at h
  rw [h]
  exact ⟨rfl, rfl⟩

/-! A block of SYNC = 0. -/

theorem manualCount_eq (bcr : Word) :
    manualCount bcr = if bcr.toNat % 65536 = 0 then 65536 else bcr.toNat % 65536 := by
  rw [manualCount, BitVec.toNat_setWidth]

theorem manualCount_pos (bcr : Word) : 0 < manualCount bcr := by
  rw [manualCount]
  split <;> omega

/-- A completion or a fault after TRIGGER was cleared leaves START and TRIGGER cleared. -/
theorem clear_trigger_then_start (chcr : Word) : chcr &&& ~~~triggerBit &&& ~~~startBit = chcr &&& 0xEEFFFFFF#32 := by
  rw [BitVec.and_assoc]
  rfl

theorem clear_trigger_then_both (chcr : Word) :
    chcr &&& ~~~triggerBit &&& ~~~(startBit ||| triggerBit) = chcr &&& ~~~(startBit ||| triggerBit) := by
  rw [BitVec.and_assoc]
  rfl

theorem transferFault_clearTrigger (n : Chan) (r : DmaFault) (s : State) :
    transferFault n r (clearTrigger n s) = transferFault n r s := by
  rw [transferFault, clearTrigger, chan_setChan_same, setChan_setChan, Channel.failed, clear_trigger_then_both]
  rfl

/-- How the channel completes once its block has moved. -/
theorem complete_of_block_moved {n : Chan} {s u : State} (h : MoveFrame (clearTrigger n s) u) :
    (complete n u).chan n = { s.chan n with chcr := (s.chan n).chcr &&& 0xEEFFFFFF#32, active := false } ∧
      otherChans n s (complete n u) ∧ CompletionNoted n s (complete n u) := by
  refine ⟨?_, fun m hm => ?_, completionNoted_complete n h.nothingNoted⟩
  · rw [complete_chan_same, h.chan, clearTrigger, chan_setChan_same, Channel.finished, clear_trigger_then_start]
  · rw [otherChans_complete n u m hm, h.chan]
    exact otherChans_setChan n _ s m hm

theorem stepOf_cases (chcr : Word) : stepOf chcr = 4 ∨ stepOf chcr = -4 := by
  rw [stepOf]
  split <;> simp

/-- Two words of a block lie apart. -/
theorem blockCell_apart {a0 step : Int} (hstep : step = 4 ∨ step = -4) {j k : Nat} (hj : 0 ≤ a0 + step * j)
    (hk : 0 ≤ a0 + step * k) (hjk : j < k) : blockCell a0 step k + 4 ≤ blockCell a0 step j ∨ blockCell a0 step j + 4 ≤ blockCell a0 step k := by
  unfold blockCell
  rcases hstep with rfl | rfl <;> omega

/-! Channels 0 to 5 (R420, R421). -/

theorem manualUnit_moves {n : Chan} {s : State}
    (h : blockOk (s.chan n).madr.toNat (stepOf (s.chan n).chcr) (manualCount (s.chan n).bcr) = true) :
    manualUnit n s = complete n (moveBlock n (chcrDir (s.chan n).chcr) (s.chan n).madr.toNat (stepOf (s.chan n).chcr)
      (manualCount (s.chan n).bcr) 0 (clearTrigger n s)) := if_pos h

theorem manualUnit_faults {n : Chan} {s : State}
    (h : ¬blockOk (s.chan n).madr.toNat (stepOf (s.chan n).chcr) (manualCount (s.chan n).bcr) = true) :
    manualUnit n s = transferFault n .address s := (if_neg h).trans (transferFault_clearTrigger n .address s)

theorem moveBlock_cycles (n : Chan) (fromRam : Bool) (a0 step : Int) (count : Nat) (s : State) :
    (moveBlock n fromRam a0 step count 0 s).cycles = s.cycles + count * latencyOf .ram := by
  cases fromRam with
  | true => rw [moveBlock_fromRam]
  | false => rw [moveBlock_toRam n a0 step count 0 s.draws s rfl]

/-- Settles O52: `moveBlock_fromRam` or `moveBlock_toRam`, then the completion; or the fault. -/
theorem manualTransfer : Obligations.ManualTransfer := by
  intro s n hn hsync c count addr ok t
  have hcount : manualCount c.bcr = count := manualCount_eq c.bcr
  have hok : blockOk c.madr.toNat (stepOf c.chcr) (manualCount c.bcr) = true ↔ ok := by
    rw [blockOk_iff, hcount]
    simp only [dmaAddrOk_iff]
    rfl
  have ht : t = manualUnit n s := (dmaUnit_of_manual hsync).trans (if_neg hn)
  refine ⟨fun h => ?_, fun h => ?_⟩
  · let u := moveBlock n (chcrDir c.chcr) c.madr.toNat (stepOf c.chcr) count 0 (clearTrigger n s)
    have hu : MoveFrame (clearTrigger n s) u := moveBlock_frame ..
    have above (i : Nat) (hi : i < count) : 0 ≤ (c.madr.toNat : Int) + stepOf c.chcr * i := by
      obtain ⟨_, hlow, _⟩ := h i hi
      exact hlow
    have htu : t = complete n u := by rw [ht, manualUnit_moves (hok.2 h), hcount]
    obtain ⟨hchan, hothers, hnoted⟩ := htu ▸ complete_of_block_moved hu
    obtain ⟨hmem, hcycles, hdraws, hemitted⟩ := htu ▸ sameMoved_complete n u
    refine ⟨hchan, hothers, dmaUnit_frame n s, hcycles.trans (moveBlock_cycles ..), hnoted, fun hdir => ?_, fun hdir => ?_⟩
    · have hmoved : u = _ := hdir ▸ moveBlock_fromRam n c.madr.toNat (stepOf c.chcr) count 0 (clearTrigger n s)
      rw [hmem, hdraws, hemitted, hmoved, List.range_eq_range']
      exact ⟨rfl, rfl, rfl⟩
    · have hmoved : u = _ := hdir ▸ moveBlock_toRam n c.madr.toNat (stepOf c.chcr) count 0 s.draws (clearTrigger n s) rfl
      rw [hmem, hdraws, hemitted, hmoved]
      exact ⟨rfl, rfl, fun i hi => wordAt_storeWords (Nat.zero_le i) (by omega) fun k hk hkc =>
          blockCell_apart (stepOf_cases c.chcr) (above i hi) (above k (by omega)) hk,
        fun x hx => readByte_storeWords_of_outside fun j _ hj => hx j (by omega)⟩
  · rw [manualUnit_faults (mt hok.1 h)] at ht
    rw [ht]
    exact ⟨rfl, otherChans_setChan n _ s, chan_transferFault n .address s⟩

/-! Channel 6 (R436). -/

theorem otcUnit_moves {s : State} (h : blockOk (s.chan 6).madr.toNat (-4) (manualCount (s.chan 6).bcr) = true) :
    otcUnit s = complete 6 (otcBlock (s.chan 6).madr.toNat (manualCount (s.chan 6).bcr) 0 (clearTrigger 6 s)) := if_pos h

theorem otcUnit_faults {s : State} (h : ¬blockOk (s.chan 6).madr.toNat (-4) (manualCount (s.chan 6).bcr) = true) :
    otcUnit s = transferFault 6 .address s := (if_neg h).trans (transferFault_clearTrigger 6 .address s)

/-- A downward block is good when its first address is and the last is not below 0. -/
theorem blockOk_down {a count : Nat} (hc : 0 < count) :
    blockOk a (-4) count = true ↔ a % 4 = 0 ∧ a < 0x00200000 ∧ 4 * (count - 1) ≤ a := by
  simp only [blockOk_iff, dmaAddrOk_iff]
  refine ⟨fun h => ?_, fun h j hj => by omega⟩
  have first := h 0 hc
  have last := h (count - 1) (by omega)
  omega

theorem blockCell_down (a j : Nat) : blockCell a (-4) j = a - 4 * j := by
  unfold blockCell
  omega

/-- The link of the reverse chain: the address four bytes below. -/
theorem otcWord_link {a : Nat} (h4 : 4 ≤ a) (ha : a < 0x00200000) : otcWord false (BitVec.ofNat 32 a) = BitVec.ofNat 32 (a - 4) := by
  apply BitVec.eq_of_toNat_eq
  have hsub : (BitVec.ofNat 32 a - 4).toNat = a - 4 := by bv_omega
  rw [otcWord, if_neg Bool.false_ne_true, BitVec.toNat_and, hsub, show (0x001FFFFF#32).toNat = 2 ^ 21 - 1 from rfl,
    Nat.and_two_pow_sub_one_eq_mod, BitVec.toNat_ofNat]
  omega

/-- Settles O55: `otcBlock_eq` with the links by `otcWord_link`, then the completion; or the fault. -/
theorem orderingTableClear : Obligations.OrderingTableClear := by
  intro s hsync c count ok t
  have hcount : manualCount c.bcr = count := manualCount_eq c.bcr
  have hpos : 0 < count := hcount ▸ manualCount_pos c.bcr
  have hok : blockOk c.madr.toNat (-4) (manualCount c.bcr) = true ↔ ok := hcount ▸ blockOk_down hpos
  have ht : t = otcUnit s := dmaUnit_of_manual hsync
  by_cases h : ok
  · let u := otcBlock c.madr.toNat count 0 (clearTrigger 6 s)
    have hu : MoveFrame (clearTrigger 6 s) u := otcBlock_frame ..
    have htu : t = complete 6 u := by rw [ht, otcUnit_moves (hok.2 h), hcount]
    have hmoved : u = _ := otcBlock_eq c.madr.toNat count 0 count (clearTrigger 6 s) (Nat.zero_add count)
    obtain ⟨hchan, hothers, hnoted⟩ := htu ▸ complete_of_block_moved hu
    obtain ⟨hmem, hcycles, hdraws, hemitted⟩ := htu ▸ sameMoved_complete 6 u
    rw [hmoved] at hmem hcycles hdraws hemitted
    obtain ⟨h4, htop, hlow⟩ := h
    have word (i : Nat) (hi : i < count) :
        wordAt t.mem (c.madr.toNat - 4 * i) = otcWord (i + 1 == count) (BitVec.ofNat 32 (c.madr.toNat - 4 * i)) := by
      rw [hmem, ← blockCell_down]
      exact wordAt_storeWords (Nat.zero_le i) (by omega) fun k hk hkc => blockCell_apart (.inr rfl) (by omega) (by omega) hk
    refine ⟨hothers, hemitted, hdraws, dmaUnit_frame 6 s, fun _ => ⟨hchan, hnoted, hcycles, fun i hi => ?_, ?_, fun x hx => ?_⟩,
      fun hbad => absurd ⟨h4, htop, hlow⟩ hbad⟩
    · have more : (i + 1 == count) = false := beq_false_of_ne (by omega)
      rw [word i (by omega), more, otcWord_link (by omega) (by omega)]
    · have last : (count - 1 + 1 == count) = true := beq_iff_eq.2 (Nat.sub_add_cancel hpos)
      rw [word _ (by omega), last]
      rfl
    · rw [hmem]
      refine readByte_storeWords_of_outside fun j _ hj => ?_
      rw [blockCell_down]
      omega
  · rw [otcUnit_faults (mt hok.1 h)] at ht
    rw [ht]
    exact ⟨otherChans_setChan 6 _ s, rfl, rfl, rfl, fun hgood => absurd hgood h, fun _ => ⟨rfl, chan_transferFault 6 .address s⟩⟩

end Sys2Proof.Machine
end

section
/-! SUPPORT. The unit of a request transfer (65_dma R422, R423): the two faults, and one word moved with the channel's registers stepped
on. -/

namespace Sys2Proof.Machine

/-! The registers after one word. -/

theorem blocksLeft_oneBlockLess (bcr : Word) : blocksLeft (oneBlockLess bcr) = blocksLeft bcr - 1 :=
  BitVec.extractLsb'_append_eq_left

/-- BCR[15:0]. -/
theorem setWidth_eq_low_half (bcr : Word) : bcr.setWidth 16 = bcr.extractLsb' 0 16 := BitVec.setWidth_eq_extractLsb' (by decide)

theorem oneBlockLess_eq (bcr : Word) : oneBlockLess bcr = (bcr.extractLsb' 16 16 - 1) ++ bcr.extractLsb' 0 16 := by
  rw [oneBlockLess, setWidth_eq_low_half]
  rfl

/-- The last word of a block. -/
theorem wkLeft_last {c : Channel} : c.wkLeft - 1 = 0 ↔ c.wkLeft = 1 := sub_eq_zero

/-- The last block. -/
theorem blocksLeft_last {bcr : Word} : blocksLeft (oneBlockLess bcr) = 0 ↔ blocksLeft bcr = 1 := by
  rw [blocksLeft_oneBlockLess]
  exact sub_eq_zero

section
variable {c : Channel}

theorem wordMoved_of_more_words (h : c.wkLeft ≠ 1) : c.wordMoved = { c with madr := nextMadr c, wkLeft := c.wkLeft - 1 } :=
  if_neg (mt wkLeft_last.1 h)

theorem wordMoved_of_last_word (h : c.wkLeft = 1) : c.wordMoved = { c with
    madr := nextMadr c
    bcr := oneBlockLess c.bcr
    wkLeft := if blocksLeft c.bcr = 1 then 0 else (c.bcr.setWidth 16).setWidth 17 } := by
  rw [Channel.wordMoved, if_pos (wkLeft_last.2 h)]
  simp only [blocksLeft_last]

end

/-- The last word of the last block. -/
theorem transfer_ends {c : Channel} : c.wkLeft - 1 = 0 ∧ blocksLeft c.wordMoved.bcr = 0 ↔ c.wkLeft = 1 ∧ blocksLeft c.bcr = 1 := by
  rw [wkLeft_last]
  refine and_congr_right fun h => ?_
  rw [wordMoved_of_last_word h, blocksLeft_last]

/-! The unit. -/

/-- An aligned address of RAM (R428). -/
abbrev RamWord (a : Nat) : Prop := a % 4 = 0 ∧ a < 0x00200000

theorem dmaAddrOk_natCast {a : Nat} : dmaAddrOk a = true ↔ RamWord a := by
  rw [dmaAddrOk_iff]
  omega

section
variable {n : Chan} {s : State}

theorem requestUnit_zeroBlock (h : (s.chan n).bcr.extractLsb' 0 16 = 0 ∨ (s.chan n).bcr.extractLsb' 16 16 = 0) :
    requestUnit n s = transferFault n .zeroBlock s := by
  rw [← setWidth_eq_low_half] at h
  exact if_pos h

variable (hbs : (s.chan n).bcr.extractLsb' 0 16 ≠ 0) (hba : (s.chan n).bcr.extractLsb' 16 16 ≠ 0)
include hbs hba

theorem requestUnit_badAddress (ha : ¬RamWord (s.chan n).madr.toNat) : requestUnit n s = transferFault n .address s := by
  rw [← setWidth_eq_low_half] at hbs
  rw [← dmaAddrOk_natCast, Bool.not_eq_true] at ha
  exact (if_neg (not_or.2 ⟨hbs, hba⟩)).trans (if_pos (by rw [ha]; rfl))

theorem requestUnit_moves (ha : RamWord (s.chan n).madr.toNat) : requestUnit n s =
    let u := setChan n (s.chan n).wordMoved (moveWord n (chcrDir (s.chan n).chcr) (s.chan n).madr.toNat s)
    if (s.chan n).wkLeft = 1 ∧ blocksLeft (s.chan n).bcr = 1 then complete n u else u := by
  rw [← setWidth_eq_low_half] at hbs
  simp only [← transfer_ends]
  exact (if_neg (not_or.2 ⟨hbs, hba⟩)).trans (if_neg (by rw [dmaAddrOk_natCast.2 ha]; exact Bool.false_ne_true))

end

theorem moveWord_cycles (n : Chan) (fromRam : Bool) (a : Nat) (s : State) :
    (moveWord n fromRam a s).cycles = s.cycles + 1 * latencyOf .ram := by
  rw [Nat.one_mul]
  cases fromRam <;> rfl

/-- Settles O53: the faults, or `requestUnit_moves` with the channel by `wordMoved_of_more_words` or `wordMoved_of_last_word`. -/
theorem requestTransfer : Obligations.RequestTransfer := by
  intro s n hsync c a next less bs t
  have ht : t = requestUnit n s := dmaUnit_of_request hsync
  refine ⟨fun h => ht.trans (requestUnit_zeroBlock h),
    fun hbs hba ha => ht.trans (requestUnit_badAddress hbs hba ha), fun hbs hba hal hlt => ?_⟩
  let u := setChan n c.wordMoved (moveWord n (chcrDir c.chcr) a s)
  have htu : t = if c.wkLeft = 1 ∧ blocksLeft c.bcr = 1 then complete n u else u :=
    ht.trans (requestUnit_moves hbs hba ⟨hal, hlt⟩)
  have hframe : MoveFrame s (moveWord n (chcrDir c.chcr) a s) := moveWord_frame ..
  have hchan : u.chan n = c.wordMoved := chan_setChan_same n _ _
  have hu : otherChans n s u := fun m hm => (otherChans_setChan n _ _ m hm).trans (hframe.chan m)
  have quiet : NothingNoted s u := hframe.nothingNoted
  have ⟨hothers, hmem, hcycles, hdraws, hemitted⟩ : otherChans n s t ∧ SameMoved u t := by
    rw [htu]
    split
    · exact ⟨fun m hm => (otherChans_complete n u m hm).trans (hu m hm), sameMoved_complete n u⟩
    · exact ⟨hu, rfl, rfl, rfl, rfl⟩
  refine ⟨hothers, dmaUnit_frame n s, hcycles.trans (moveWord_cycles ..), fun hdir => ?_, fun hdir => ?_, fun hw => ?_,
    fun hw (hb : blocksLeft c.bcr ≠ 1) => ?_, fun hw (hb : blocksLeft c.bcr = 1) => ?_⟩
  · have hmoved : u = setChan n c.wordMoved (moveWord n true a s) := hdir ▸ rfl
    rw [hmem, hdraws, hemitted, hmoved]
    exact ⟨rfl, rfl, rfl⟩
  · have hmoved : u = setChan n c.wordMoved (moveWord n false a s) := hdir ▸ rfl
    rw [hmem, hdraws, hemitted, hmoved]
    exact ⟨rfl, rfl, wordAt_writeMem s.mem a _, fun x hx => readByte_writeMem_of_outside s.mem a x .b32 _ hx⟩
  · rw [htu, if_neg fun h => hw h.1, hchan, wordMoved_of_more_words hw]
    exact ⟨rfl, quiet⟩
  · rw [htu, if_neg fun h => hb h.2, hchan, wordMoved_of_last_word hw, if_neg hb, oneBlockLess_eq, setWidth_eq_low_half]
    exact ⟨rfl, quiet⟩
  · rw [htu, if_pos ⟨hw, hb⟩, complete_chan_same, hchan, wordMoved_of_last_word hw, if_pos hb, oneBlockLess_eq]
    exact ⟨rfl, completionNoted_complete n quiet⟩

end Sys2Proof.Machine
end

section
/-! SUPPORT. The unit of a linked-list transfer (65_dma R424, R425): one node, its header read and its words delivered from RAM. -/

namespace Sys2Proof.Machine

/-! The header. -/

theorem headerCount_eq (hdr : Word) : headerCount hdr = hdr.toNat / 0x1000000 := by
  have := hdr.isLt
  rw [headerCount, BitVec.extractLsb'_toNat, Nat.shiftRight_eq_div_pow, Nat.mod_eq_of_lt (by omega)]

theorem headerNext_toNat (hdr : Word) : (headerNext hdr).toNat = hdr.toNat % 0x1000000 := BitVec.toNat_setWidth ..

/-! The unit. -/

/-- The header word of channel n's node. -/
def nodeHeader (n : Chan) (s : State) : Word := wordAt s.mem (s.chan n).madr.toNat

/-- The address of the last word of channel n's node. -/
def nodeEnd (n : Chan) (s : State) : Nat := (s.chan n).madr.toNat + 4 * headerCount (nodeHeader n s)

/-- The state once the header is read and every word after it delivered, before the channel moves on. -/
def nodeSent (n : Chan) (s : State) : State := { s with
  cycles := s.cycles + (headerCount (nodeHeader n s) + 1) * latencyOf .ram
  emitted := s.emitted ++ (List.range (headerCount (nodeHeader n s))).map fun i =>
    .dmaWord n (wordAt s.mem ((s.chan n).madr.toNat + 4 * (i + 1))) }

theorem moveBlock_node (n : Chan) (s : State) :
    moveBlock n true (s.chan n).madr.toNat 4 (headerCount (nodeHeader n s)) 1 (dmaTick s) = nodeSent n s := by
  have cell (i : Nat) : blockCell (s.chan n).madr.toNat 4 (1 + i) = (s.chan n).madr.toNat + 4 * (i + 1) := by
    unfold blockCell
    omega
  rw [moveBlock_fromRam, nodeSent, cycles_succ, List.range'_eq_map_range, List.map_map]
  simp only [Function.comp_def, cell]
  rfl

/-- The unit, outcome by outcome (R424). -/
theorem linkedUnit_eq (n : Chan) (s : State) : linkedUnit n s =
    if chcrDir (s.chan n).chcr = false then transferFault n .linkDirection s
    else if ¬RamWord (s.chan n).madr.toNat then transferFault n .linkPointer s
    else if 0 < headerCount (nodeHeader n s) ∧ ¬RamWord (nodeEnd n s) then transferFault n .address (dmaTick s)
    else if headerNext (nodeHeader n s) = 0xFFFFFF#24 then complete n (setMadr n 0xFFFFFF#24 (nodeSent n s))
    else if ¬RamWord (headerNext (nodeHeader n s)).toNat then transferFault n .linkPointer (nodeSent n s)
    else setMadr n (headerNext (nodeHeader n s)) (nodeSent n s) := by
  simp only [← moveBlock_node, ← dmaAddrOk_natCast, nodeEnd, nodeHeader, linkedUnit, readMem_b32, Bool.not_eq_true', Bool.not_eq_true,
    Bool.and_eq_true, decide_eq_true_eq, Nat.cast_add, Nat.cast_mul, Nat.cast_ofNat, gt_iff_lt]

/-- Every outcome is one update of channel n of a state in which only cycles and delivered words differ. -/
theorem linkedUnit_keeps (n : Chan) (s : State) :
    (linkedUnit n s).mem = s.mem ∧ (linkedUnit n s).draws = s.draws ∧ otherChans n s (linkedUnit n s) := by
  rw [linkedUnit_eq]
  split
  · exact ⟨rfl, rfl, otherChans_setChan n _ s⟩
  split
  · exact ⟨rfl, rfl, otherChans_setChan n _ s⟩
  split
  · exact ⟨rfl, rfl, otherChans_setChan n _ (dmaTick s)⟩
  split
  · exact ⟨complete_mem n _, complete_draws n _, fun m hm =>
      (otherChans_complete n _ m hm).trans (otherChans_setChan n _ (nodeSent n s) m hm)⟩
  split
  · exact ⟨rfl, rfl, otherChans_setChan n _ (nodeSent n s)⟩
  · exact ⟨rfl, rfl, otherChans_setChan n _ (nodeSent n s)⟩

/-- Settles O54: `linkedUnit_eq`, the outcome picked by its conditions. -/
theorem linkedListTransfer : Obligations.LinkedListTransfer := by
  intro s n hsync c h hdr cnt next good sent t
  have hcnt : headerCount (nodeHeader n s) = cnt := headerCount_eq hdr
  have hend : nodeEnd n s = h + 4 * cnt := congrArg (h + 4 * ·) hcnt
  have hnext : (headerNext (nodeHeader n s)).toNat = next := headerNext_toNat hdr
  have hterm : headerNext (nodeHeader n s) = 0xFFFFFF#24 ↔ next = 0xFFFFFF := by rw [BitVec.toNat_eq, hnext]; rfl
  have ht : t = _ := (dmaUnit_of_linked hsync).trans (linkedUnit_eq n s)
  have keeps := linkedUnit_keeps n s
  rw [← dmaUnit_of_linked hsync] at keeps
  obtain ⟨hmem, hdraws, hothers⟩ := keeps
  rw [hcnt, hend, hnext] at ht
  refine ⟨hmem, hdraws, hothers, dmaUnit_frame n s, fun hdir => ht.trans (if_pos hdir),
    fun hdir hh => ht.trans ((if_neg (ne_false_of_eq_true hdir)).trans (if_pos hh)),
    fun (hdir : chcrDir (s.chan n).chcr = true) hh hpos hbad => ?_, fun (hdir : chcrDir (s.chan n).chcr = true) hh hgood => ?_⟩ <;>
    rw [if_neg (ne_false_of_eq_true hdir), if_neg (not_not.2 hh)] at ht
  · rw [ht, if_pos ⟨hpos, hbad⟩]
    exact ⟨rfl, chan_transferFault n .address (dmaTick s), ⟨rfl, rfl⟩, by rw [ramCycles, Nat.one_mul]; rfl⟩
  · rw [if_neg fun h => hgood.elim (Nat.ne_of_gt h.1) h.2] at ht
    have ⟨hemitted, hcycles⟩ : (nodeSent n s).emitted = sent ∧ ramCycles (cnt + 1) s (nodeSent n s) := by
      rw [nodeSent, hcnt]
      exact ⟨rfl, rfl⟩
    have ⟨_, hc, _, he⟩ : SameMoved (nodeSent n s) t := by
      rw [ht]
      split
      · exact sameMoved_complete n (setMadr n _ (nodeSent n s))
      split <;> exact ⟨rfl, rfl, rfl, rfl⟩
    refine ⟨he.trans hemitted, hc.trans hcycles, fun hlast => ?_, fun hmore hbad => ?_, fun hmore hgood => ?_⟩
    · rw [ht, if_pos (hterm.2 hlast), complete_chan_same, setMadr, chan_setChan_same]
      exact ⟨rfl, completionNoted_complete n ⟨rfl, rfl⟩⟩
    · rw [ht, if_neg (mt hterm.1 hmore), if_pos hbad]
      exact ⟨chan_transferFault n .linkPointer (nodeSent n s), rfl, rfl⟩
    · rw [ht, if_neg (mt hterm.1 hmore), if_neg (not_not.2 hgood), setMadr, chan_setChan_same, ← hnext, BitVec.ofNat_toNat,
        BitVec.setWidth_eq]
      exact ⟨rfl, rfl, rfl⟩

end Sys2Proof.Machine
end

section
/-! SUPPORT. The state that reset leaves (70_reset R460 to R463), and the step on a no-operation word. -/

namespace Sys2Proof.Machine

/-! What reset() leaves. -/

/-- No register is written after reset (70_reset R460). -/
theorem hostReset_written (s : State) (r : Reg) : (hostReset s).gpr.written.get r.toFin = false := Vector.getElem_replicate _

/-- The DMA channels of 70_reset R460: idle, with no diagnostic and only the bit that always reads 1 in CHCR. -/
theorem hostReset_chan_idle (s : State) (n : Chan) : ((hostReset s).chan n).active = false ∧ ((hostReset s).chan n).diag = [] ∧
    ((hostReset s).chan n).chcr = if n = 6 then 2#32 else 0#32 := by
  rw [hostReset_chan]
  exact ⟨rfl, rfl, rfl⟩

/-- The bits of SR that 70_reset R460 fixes: kernel mode, interrupts disabled, boot vectors. -/
theorem resetSr_bits : Layout.resetSr.getLsbD 0 = false ∧ Layout.resetSr.getLsbD 1 = false ∧ Layout.resetSr.getLsbD 17 = false ∧
    Layout.resetSr.getLsbD 21 = false ∧ Layout.resetSr.getLsbD 22 = true := by decide

/-- Interrupts are disabled after reset. -/
theorem irqRequest_hostReset (s : State) : irqRequest (hostReset s) = false := by
  have hie : srIEc (hostReset s) = false := resetSr_bits.1
  rw [irqRequest, hie, Bool.false_and]

/-- The reset vector is aligned, and kernel mode may fetch from it. -/
theorem fetchFault_hostReset (s : State) : fetchFault (hostReset s) = false := by
  have haligned : misaligned Layout.resetVector .b32 = false := by decide
  have hpc : (hostReset s).pc = Layout.resetVector := rfl
  have hkernel : srKUc (hostReset s) = false := resetSr_bits.2.1
  rw [fetchFault, hpc, haligned, hkernel, Bool.false_and, Bool.or_false]

/-- The reset vector is the first word of the BIOS (20_memory R89), whatever windows the host has registered. -/
theorem memoryAt_resetVector (cfg : Params) : memoryAt cfg Layout.resetVector = some (.bios, 0x1FC00000) := by
  obtain ⟨-, -, hbios, -⟩ := memoryMap cfg 0
  exact hbios (by decide) 0xBFC00000#32 (by decide)

theorem inv_reset : Inv State.reset :=
  inv_iff.2 ⟨⟨reset_mem_wf, List.forall_mem_nil _⟩, fun n => hostReset_chan State.reset n ▸ channelInv_reset n, by decide,
    fun _ h => absurd h List.not_mem_nil⟩

/-! The no-operation. -/

theorem decode_zero : decode 0#32 = .instr (.sll 0 0 0) := by decide

/-- SLL of x[0] into x[0] reads no register but x[0] and writes none. -/
theorem completes_nop (s : State) : Completes (.sll 0 0 0) { wr := some ⟨0, 0⟩ } s :=
  completes_of_read (sources := [0]) (by rw [exec, execSll, State.reg_zero]; rfl) rfl

/-- A write of x[0] changes no register. -/
theorem regAfter_write_zero {s : State} (hl : s.ld = none) (v : Word) (q : Reg) : regAfter s (some ⟨0, v⟩) none q = s.reg q := by
  unfold regAfter
  split
  · next hq => rw [hq, State.reg_zero]
  · next hq =>
    have hn : names (some ⟨0, v⟩) q = false := by simpa using Ne.symm hq
    rw [hn, hl, if_neg Bool.false_ne_true, names_none, Bool.false_and, if_neg Bool.false_ne_true]

/-- A CPU step that fetches the word 0 from memory, with both slots empty, moves the pc to the next word. -/
theorem step_of_nop {s : State} {h : Handler} {a : Nat} (hnext : cpuNext s = true) (hirq : irqRequest s = false)
    (hpc : fetchFault s = false) (hm : memoryAt s.cfg s.pc = some (h, a)) (hw : wordAt s.mem a = 0#32) (hld : s.ld = none)
    (hbr : s.br = none) :
    ∃ t, step s = .next t ∧ t.pc = s.pc + 4 ∧ t.br = none ∧ t.ld = none ∧ ∀ r, t.reg r = s.reg r := by
  obtain ⟨t, ht, hret, -⟩ := completes_nop (noteCall h (atFetch s))
  have hfetch := fetchReadsMemory (atFetch s) h a hm
  have hdec : decode (wordAt s.mem a) = .instr (.sll 0 0 0) := by rw [hw, decode_zero]
  refine ⟨t, ?_, ?_, hret.branch, hret.slot, fun r => ?_⟩
  · rw [← ht]
    exact stepRunsDecodedInstruction s _ _ _ hnext hirq hpc hfetch hdec (by simp [hbr])
  · have hslot : (noteCall h (atFetch s)).br = none := hbr
    rw [hret.pc, hslot]
    rfl
  · rw [hret.regs, regAfter_write_zero (s := noteCall h (atFetch s)) hld]
    rfl

/-! The statements. -/

/-- Settles O56: every value is the field of the reset state; the channels are `hostReset_chan`, what is kept is `hostReset_frame`. -/
theorem hostResetValues : Obligations.HostResetValues := by
  intro s t
  obtain ⟨hmem, hcfg, -⟩ := hostReset_frame s
  obtain ⟨hIEc, hKUc, hSwC, hTS, hBEV⟩ := resetSr_bits
  have hdicr : Snapshot.reset.dicr.word = 0 := by decide
  exact ⟨rfl, rfl, rfl, State.reg_zero t, hIEc, hKUc, hSwC, hTS, hBEV, rfl, rfl, rfl, rfl, rfl, hdicr, hostReset_chan_idle s, rfl, rfl, rfl,
    hmem, hcfg, hostReset_written s, rfl, rfl⟩

/-- Settles O57: `State.reset` is what reset() leaves of itself; a state reset() left meets the premises of `step_of_nop`. -/
theorem resetStateStarts : Obligations.ResetStateStarts := by
  refine ⟨inv_reset, by decide, irqRequest_hostReset State.reset, fetchFault_hostReset State.reset,
    memoryAt_resetVector State.reset.cfg, fun s hs hnext hw => ?_⟩
  rw [hs] at hnext hw ⊢
  exact step_of_nop hnext (irqRequest_hostReset s) (fetchFault_hostReset s) (memoryAt_resetVector s.cfg) hw rfl rfl

end Sys2Proof.Machine
end
